-- ==== Sys2Proof/Word.lean ====
section
/-! DEFINITION. The value types of the spec's notation (00_scope.md R9, R10): every value is unsigned. -/

namespace Sys2Proof

/-- `Byte` of R9: the integers 0 to 255. -/
abbrev Byte := BitVec 8

/-- A 24-bit request word (R71). -/
abbrev Word24 := BitVec 24

/-- `Bit` of R9. -/
abbrev Bit := BitVec 1

/-- `Addr7` of R9: a register address, 0 to 127. -/
abbrev Addr7 := BitVec 7

/-- `Addr8` of R9: the request word's address field, 0 to 255. -/
abbrev Addr8 := BitVec 8

end Sys2Proof
end

