-- ==== Sys2Proof/Config.lean ====
section
/-! DEFINITION. The parameters of 00_scope.md R8: the fixed ones as numbers, the open ones as opaque constants, and the free
values (ENV's replies and the choice among enabled steps). -/

namespace Sys2Proof

/-- `CFG.TIMEOUT_MODE` (10_state.md R21): 0 = REFERENCE, 1 = HARDENED. -/
inductive TimeoutMode where
  | reference
  | hardened
deriving DecidableEq, Repr, Inhabited

/-- `CFG.BIT_ORDER` (R21): MSB_FIRST is its only legal value (20_memory.md R53). -/
inductive BitOrder where
  | msbFirst
deriving DecidableEq, Repr, Inhabited

/-- `W_PRESCALER` (R8): OPEN. -/
opaque Config.wPrescaler : Nat

/-- `CFG` (R21): fixed when reset is released, written by no step, a parameter of the step relation and not state (R22). -/
structure Cfg where
  /-- `CFG.PRESCALER`: OPEN, read by no rule. -/
  prescaler : BitVec Config.wPrescaler
  /-- `CFG.CLOCK_PHASE`: OPEN, read by no rule. -/
  clockPhase : Bit
  /-- `CFG.CLOCK_POLARITY`: OPEN, read by no rule. -/
  clockPolarity : Bit
  /-- `CFG.BIT_ORDER`: read by no rule. -/
  bitOrder : BitOrder
  /-- `CFG.TIMEOUT_MODE`: the only field a rule reads (60_exceptions.md R141). -/
  timeoutMode : TimeoutMode
deriving DecidableEq, Repr, Inhabited

/-- R166: the value that reset latches into `CFG` from the configuration parameters. It has no body: what holds of `step`
holds for every configuration, in either timeout mode (log entry 3). -/
opaque Config.cfg : Cfg

/-- R8: `TIMEOUT_MODE` has the default REFERENCE; `step` does not rest on it (log entry 3). -/
def Config.defaultTimeoutMode : TimeoutMode := .reference

/-- The spec's own label of the block (R1). -/
def Config.version : String := "SPItest-SPIM-v7"

/-- `DATA_WIDTH` (R8), fixed. -/
def Config.dataWidth : Nat := 8

/-- `ADDR_WIDTH` (R8), fixed. -/
def Config.addrWidth : Nat := 7

/-- `CS_COUNT` (R8), fixed. -/
def Config.csCount : Nat := 1

/-- `CS_ACTIVE_LEVEL` (R8), fixed: low. -/
def Config.csActiveLevel : Bit := 0

/-- `DUMMY_BYTE` (R8), fixed: the second byte of a read (R116). -/
def Config.dummyByte : Byte := 0x00

/-- `CMD_BIT0` (R8), fixed. -/
def Config.cmdBit0 : Bit := 0

/-- `RW_READ` (R8), fixed. -/
def Config.rwRead : Bit := 1

/-- `RW_WRITE` (R8), fixed. -/
def Config.rwWrite : Bit := 0

/-- `TIMEOUT_BOUND` (R8): OPEN, read by no rule (log entry 18). -/
opaque Config.timeoutBound : Nat

/-- `SCLK_PER_BYTE` (R8): OPEN, read by no rule (log entry 18). -/
opaque Config.sclkPerByte : Nat

/-- `T_CS_SETUP` (R8): OPEN, read by no rule (log entry 18). -/
opaque Config.tCsSetup : Nat

/-- `T_CS_HOLD` (R8): OPEN, read by no rule (log entry 18). -/
opaque Config.tCsHold : Nat

/-- `T_CS_IDLE` (R8): OPEN, read by no rule (log entry 18). -/
opaque Config.tCsIdle : Nat

/-- Free value: the byte ENV draws (R93, "a free input", under no law), by the number of the draw (log entry 1). -/
opaque Config.reply : Nat → Byte

/-- Free value: which of several enabled steps is taken next (R20, R145), by the number of the draw (log entry 2). -/
opaque Config.pick : Nat → Nat

end Sys2Proof
end

