-- ==== Sys2Proof/Syntax.lean ====
section
/-! DEFINITION. The instructions: one constructor per row of spec/opcode_table.json. The five host requests
(30_encoding.md R72) and the three forms of the wire command byte (R82). -/

namespace Sys2Proof

/-- R1: "Its 'instruction set' in this spec is two things": the host requests and the wire command byte. -/
inductive Instr where
  /-- SEL, `select()` (R96). -/
  | sel
  /-- DESEL, `deselect()` (R97). -/
  | desel
  /-- XFER `d`, `transceive(d)` (R98). -/
  | xfer (d : Byte)
  /-- RDREG `a8`, `read_register` (R115); `a8` is the whole 8-bit ADDR field (R75). -/
  | rdreg (a8 : Addr8)
  /-- WRREG `a8, d`, `write_register` (R118). -/
  | wrreg (a8 : Addr8) (d : Byte)
  /-- WCMD_READ: the command byte `1AAAAAA0` of a read (R78). -/
  | wcmdRead (a : BitVec 6)
  /-- WCMD_WRITE: the command byte `0AAAAAA0` of a write to an address 0 to 63 (R78). -/
  | wcmdWrite (a : BitVec 6)
  /-- WCMD_WRITE_HI: the command byte `1AAAAAA0` of a write to an address 64 to 127 (R126). -/
  | wcmdWriteHi (a : BitVec 6)
deriving DecidableEq, Repr

end Sys2Proof
end

