-- ==== Sys2Proof/Decode.lean ====
section
/-! DEFINITION. The encodings of 30_encoding.md: the request word HREQ (R71 to R74), the wire command byte WCMD (R77, R78),
their decoders, total and rejecting by name, and the encoder. -/

namespace Sys2Proof

/-- Why a word spells no instruction (R74, R80). -/
inductive Reject where
  /-- `RSV ≠ 0`. -/
  | reservedField
  /-- `OP` in 0x0, 0x6 to 0xF. -/
  | reservedOp
  /-- A must-be-zero `ADDR` is not zero. -/
  | addrField
  /-- A must-be-zero `DATA` is not zero. -/
  | dataField
  /-- A wire command byte with bit 0 = 1, which the block never produces. -/
  | wireBit0
  /-- A byte with bit 7 = 0 where a read's command byte is expected. -/
  | readBit7
deriving DecidableEq, Repr

/-- `OP`, bits 23:20 (R71). -/
def opField (w : Word24) : BitVec 4 := w.extractLsb' 20 4

/-- `RSV`, bits 19:16 (R71). -/
def rsvField (w : Word24) : BitVec 4 := w.extractLsb' 16 4

/-- `ADDR`, bits 15:8 (R71). -/
def addrField (w : Word24) : Addr8 := w.extractLsb' 8 8

/-- `DATA`, bits 7:0 (R71). -/
def dataField (w : Word24) : Byte := w.extractLsb' 0 8

/-- `i`, if the field that must be zero is zero (R73). -/
def whenZero (field : Byte) (r : Reject) (i : Except Reject Instr) : Except Reject Instr :=
  if field = 0 then i else .error r

/-- `decode(w)` of R74: total on all 2^24 words. -/
def decodeRequest (w : Word24) : Except Reject Instr :=
  if rsvField w ≠ 0 then .error .reservedField
  else if opField w = 0x1 then whenZero (addrField w) .addrField (whenZero (dataField w) .dataField (.ok .sel))
  else if opField w = 0x2 then whenZero (addrField w) .addrField (whenZero (dataField w) .dataField (.ok .desel))
  else if opField w = 0x3 then whenZero (addrField w) .addrField (.ok (.xfer (dataField w)))
  else if opField w = 0x4 then whenZero (dataField w) .dataField (.ok (.rdreg (addrField w)))
  else if opField w = 0x5 then .ok (.wrreg (addrField w) (dataField w))
  else .error .reservedOp

/-- Bit 7 of a wire byte, the `RW` field of R77. -/
def wireRw (b : Byte) : Bit := b.extractLsb' 7 1

/-- Bits 6:1 of a wire byte, the `A` field of R77. -/
def wireAddr (b : Byte) : BitVec 6 := b.extractLsb' 1 6

/-- Bit 0 of a wire byte, reserved (R77). -/
def wireBit0 (b : Byte) : Bit := b.extractLsb' 0 1

/-- The wire command byte `b`, sent by a transaction with R/W intent `rw` (R77, R78): a write's byte with bit 7 = 1 is
WCMD_WRITE_HI (R126). -/
def decodeCommand (rw : Bit) (b : Byte) : Except Reject Instr :=
  if wireBit0 b ≠ 0 then .error .wireBit0
  else if rw = Config.rwRead then
    if wireRw b = 1 then .ok (.wcmdRead (wireAddr b)) else .error .readBit7
  else if wireRw b = 0 then .ok (.wcmdWrite (wireAddr b)) else .ok (.wcmdWriteHi (wireAddr b))

/-- The wire command byte `b` alone, as the bus carries it. R78, 90_conflicts.md C1: bit 7 = 1 is a read's byte and a high
write's byte at once; DEDUCED (log entry 10): the byte alone is read as WCMD_READ. -/
def decodeWire (b : Byte) : Except Reject Instr :=
  if wireBit0 b ≠ 0 then .error .wireBit0
  else if wireRw b = 1 then .ok (.wcmdRead (wireAddr b)) else .ok (.wcmdWrite (wireAddr b))

/-- An encoded instruction: a request word, or a wire command byte with the R/W intent of the transaction that sends it. -/
inductive Code where
  | hreq (w : Word24)
  | wcmd (rw : Bit) (b : Byte)
deriving DecidableEq, Repr

/-- Both decoders as one. -/
def decode : Code → Except Reject Instr
  | .hreq w => decodeRequest w
  | .wcmd rw b => decodeCommand rw b

/-- The word of R73 with `RSV = 0`. -/
def hreqWord (op : BitVec 4) (addr : Addr8) (data : Byte) : Word24 := op ++ 0#4 ++ addr ++ data

/-- The byte of R77: `RW`, `A`, bit 0. -/
def wcmdByte (rw : Bit) (a : BitVec 6) : Byte := rw ++ a ++ Config.cmdBit0

/-- The encodings of R73 and R82, row by row of opcode_table.json. -/
def encode : Instr → Code
  | .sel => .hreq (hreqWord 0x1 0 0)
  | .desel => .hreq (hreqWord 0x2 0 0)
  | .xfer d => .hreq (hreqWord 0x3 0 d)
  | .rdreg a8 => .hreq (hreqWord 0x4 a8 0)
  | .wrreg a8 d => .hreq (hreqWord 0x5 a8 d)
  | .wcmdRead a => .wcmd Config.rwRead (wcmdByte 1 a)
  | .wcmdWrite a => .wcmd Config.rwWrite (wcmdByte 0 a)
  | .wcmdWriteHi a => .wcmd Config.rwWrite (wcmdByte 1 a)

/-- The instruction read from a word whose bits opcode_table.json numbers: 24 bits of HREQ or 8 bits of WCMD. A WCMD word is
the byte alone, so `1AAAAAA0` answers WCMD_READ for the row WCMD_WRITE_HI too (log entry 10). -/
def decodeTableWord (nbits w : Nat) : Option Instr :=
  if nbits = 24 ∧ w < 2 ^ 24 then (decodeRequest (BitVec.ofNat 24 w)).toOption
  else if nbits = 8 ∧ w < 2 ^ 8 then (decodeWire (BitVec.ofNat 8 w)).toOption
  else none

/-- The request word whose ACCEPT makes the codec send the wire command byte `b` (R115, R118): RDREG for WCMD_READ, WRREG with
the value 0 for WCMD_WRITE; a byte that is no command gives the illegal word 0. DESIGN CHOICE (log entry 11). -/
def requestOfWire (b : Byte) : Word24 :=
  match decodeWire b with
  | .ok (.wcmdRead a) => hreqWord 0x4 (a.setWidth 8) 0
  | .ok (.wcmdWrite a) => hreqWord 0x5 (a.setWidth 8) 0
  | _ => 0

/-- The request word that HOST is given so that the next ACCEPT runs the instruction of a table word (log entry 11). -/
def requestOfTableWord (nbits w : Nat) : Word24 :=
  if nbits = 8 then requestOfWire (BitVec.ofNat 8 w) else BitVec.ofNat 24 w

end Sys2Proof
end

