-- ==== Sys2Proof/Machine/State.lean ====
section
/-! DEFINITION. The state (10_state.md R23 to R36), the reasons a step can stop, and the state after reset
(70_reset_and_hazards.md R165). -/

namespace Sys2Proof.Machine

/-- `Phase` of 10_state.md R26: exactly six values. -/
inductive Phase where
  /-- IDLE: no request in progress. -/
  | idle
  /-- XFER: a primitive exchange is in progress. -/
  | xfer
  /-- RD_CMD: RDREG's command byte exchange. -/
  | rdCmd
  /-- RD_DATA: RDREG's dummy byte exchange. -/
  | rdData
  /-- WR_CMD: WRREG's command byte exchange. -/
  | wrCmd
  /-- WR_DATA: WRREG's value byte exchange. -/
  | wrData
deriving DecidableEq, Repr

/-- `FaultCause` of 10_state.md R28: exactly five values; their codes are `FaultCause.code` of Machine/Flags.lean. -/
inductive FaultCause where
  | illegalRequest
  | selectWhileSelected
  | deselectWhileDeselected
  | xferOutsideWindow
  | regOpInsideWindow
deriving DecidableEq, Repr

/-- The status of a response (10_state.md R34, 30_encoding.md R76); code 3 is reserved and never produced. -/
inductive Status where
  | ok
  | busTimeout
  | invalidAddress
deriving DecidableEq, Repr

/-- `Response` of R34: `(status, data)`. -/
structure Response where
  status : Status
  data : Option Byte
deriving DecidableEq, Repr

/-- `BusEvent` of 10_state.md R33: exactly four forms. -/
inductive BusEvent where
  /-- CS_ASSERT: chip-select falls. -/
  | csAssert
  /-- CS_DEASSERT: chip-select rises. -/
  | csDeassert
  /-- XCHG(out, in): one completed exchange. -/
  | xchg (out : Byte) (inb : Byte)
  /-- XCHG_ABORT(out): an exchange abandoned by a timeout. -/
  | xchgAbort (out : Byte)
deriving DecidableEq, Repr

/-- The places that may hold no value and are read where one is needed (00_scope.md R9). -/
inductive Place where
  | rxbuf
  | wdata
  | xout
  | responseData
deriving DecidableEq, Repr

/-- The reasons for which the machine stops. The block's own faults (60_exceptions.md R136) are not among them: taking one is
a next state with the field `fault` written (R137). -/
inductive Fault where
  /-- Raised by `step`, and by the meanings of the five requests, in a state whose `fault` record is present and in which no
  agent has a step: "A *fault* stops the block for good" (R135), "No agent has a step" (R138). Safe. -/
  | blockFaulted (cause : FaultCause)
  /-- Raised where a place that holds `none` is read and a value is needed: "a model fault, never zero" (00_scope.md R9): COMPLETE
  without `rxbuf` or `wdata`, ENV_TIMEOUT without `xout` (in states no run reaches), HOST's read of a response datum that is
  absent (R177). Safe. -/
  | noValue (place : Place)
deriving DecidableEq, Repr

/-- The reasons for which an instruction has no meaning. -/
inductive Refusal where
  /-- Raised by an arm of `exec` for an instruction that has no meaning yet; no arm does. Safe. -/
  | notModelled (mnemonic : String)
deriving DecidableEq, Repr

/-- The block state of 10_state.md R23 (its twelve fields, in its order), HOST's own state (R31, R171) and the model's counter
of free values. `CFG` is no field of it (R22). -/
structure State where
  /-- `cs_n`: the chip-select level, 0 = asserted (R24). -/
  csN : Bit
  /-- `phase`: the sequencer state (R26). -/
  phase : Phase
  /-- `wdata`: the value latched by WRREG for its second byte. -/
  wdata : Option Byte
  /-- `xout`: the outbound byte of the exchange in progress. -/
  xout : Option Byte
  /-- `txbuf`: the transmit buffer. -/
  txbuf : Option Byte
  /-- `txe`: "the transmit buffer is free" (R27). -/
  txe : Bool
  /-- `shifter`: the byte being shifted out on the bus. -/
  shifter : Option Byte
  /-- `rxbuf`: the received-byte register. -/
  rxbuf : Option Byte
  /-- `rxne`: "a reply byte has been fully received" (R27). -/
  rxne : Bool
  /-- `fault`: the sticky fault record, its cause and the request word that raised it (R28). -/
  fault : Option (FaultCause × Word24)
  /-- `trace`: the bus events, oldest first (R33). -/
  trace : List BusEvent
  /-- `rsp_log`: one response per request that ended, oldest first (R34). -/
  rspLog : List Response
  /-- HOST's: the request words it has still to issue, next first (R171; log entry 5). -/
  reqs : List Word24
  /-- HOST's: the index of the next request in its program (R31). -/
  hpc : Nat
  /-- The model's own: the number of the next free value (log entry 4). -/
  draws : Nat
deriving DecidableEq, Repr

/-- The state after reset: every field of R165's table; HOST's index 0 (R31), no request placed (log entry 5), the counter at 0
(log entry 4). -/
def State.reset : State where
  csN := 1
  phase := .idle
  wdata := none
  xout := none
  txbuf := none
  txe := true
  shifter := none
  rxbuf := none
  rxne := false
  fault := none
  trace := []
  rspLog := []
  reqs := []
  hpc := 0
  draws := 0

end Sys2Proof.Machine
end

