-- ==== Sys2Proof/Machine/Operands.lean ====
section
/-! DEFINITION. The operand forms: the address field of RDREG and WRREG (30_encoding.md R75), the command byte assembly (R78) and
what HOST reads of a response (R76, R177). -/

namespace Sys2Proof.Machine

/-- R75: "`a8` in 128 to 255 is a value needing more than 7 bits": it is rejected, never masked (R124). -/
def addrOutOfRange (a8 : Addr8) : Bool := decide (128 ≤ a8.toNat)

/-- The register address of an address field in range. -/
def regAddr (a8 : Addr8) : Addr7 := a8.setWidth 7

/-- `trunc_8(v)` of 00_scope.md R10. -/
def trunc8 (v : Nat) : Byte := BitVec.ofNat 8 v

/-- `cmd(rw, a) = trunc_8((rw << 7) | (a << 1))` of R78, on unbounded naturals (R10). -/
def cmd (rw : Bit) (a : Addr7) : Byte := trunc8 ((rw.toNat <<< 7) ||| (a.toNat <<< 1))

/-- The register address whose bits 5:0 are `a` and whose bit 6 is `hi`. -/
def addrOfParts (hi : Bit) (a : BitVec 6) : Addr7 := hi ++ a

/-- `STATUS` codes of R76. -/
def statusCode : Status → BitVec 2
  | .ok => 0
  | .busTimeout => 1
  | .invalidAddress => 2

/-- HOST's read of `DATA`: a response without data holds no value, and "a model that reads it faults" (R76, R177). -/
def readResponseData (r : Response) : Except Fault Byte :=
  match r.data with
  | some b => .ok b
  | none => .error (.noValue .responseData)

/-- The 10 bits of HRSP (R76), `STATUS` in bits 9:8 and `DATA` in bits 7:0, where `DATA` holds a value. -/
def responseWord (r : Response) : Except Fault (BitVec 10) :=
  match readResponseData r with
  | .ok b => .ok (statusCode r.status ++ b)
  | .error e => .error e

end Sys2Proof.Machine
end

