-- ==== Sys2Proof/Machine/Ops.lean ====
section
/-! DEFINITION. The shared operations of the steps (00_scope.md R11): the log operations, the chip-select edges, `Start`, taking a
fault, and the guards. -/

namespace Sys2Proof.Machine

/-- `emit(e)` of R11: appends `e` to the bus trace. -/
def emit (e : BusEvent) (s : State) : State := { s with trace := s.trace ++ [e] }

/-- `respond(st, d)` of R11: appends the response to the response log. -/
def respond (st : Status) (d : Option Byte) (s : State) : State := { s with rspLog := s.rspLog ++ [⟨st, d⟩] }

/-- `phase <- p`. -/
def setPhase (p : Phase) (s : State) : State := { s with phase := p }

/-- `cs_n <- 0; emit(CS_ASSERT)`: "select()" (R96, R115, R118). -/
def openWindow (s : State) : State := emit .csAssert { s with csN := 0 }

/-- `cs_n <- 1; emit(CS_DEASSERT)`: "deselect()" (R97, R117, R120, R142). -/
def closeWindow (s : State) : State := emit .csDeassert { s with csN := 1 }

/-- `wdata <- some d`: WRREG latches its value (R118). -/
def latchValue (d : Byte) (s : State) : State := { s with wdata := some d }

/-- `raise Fault(cause)` with request word `w`: the fault entry of 60_exceptions.md R137, "exactly this and nothing else". There is
no return from it (R139): no operation clears the record. -/
def raiseFault (cause : FaultCause) (w : Word24) (s : State) : State := { s with fault := some (cause, w) }

/-- The writes of `Start(out)` (40_bus_transport.md R91). -/
def loadByte (out : Byte) (s : State) : State := { s with txbuf := some out, txe := false, xout := some out }

/-- `Start(out)` inside a step, from the step's state `s` so far, then the rest `after` of the step. R91: "await s.txe = true": the
calling step is enabled only when the transmit buffer is free; while it is not, the step is held and `held` stands. -/
def startThen (held : State) (out : Byte) (after : State → State) (s : State) : Host.Outcome State Fault Refusal :=
  if s.txe then .next (after (loadByte out s)) else .next held

/-- A read of a place where a value is needed: `none` is a model fault, never zero (00_scope.md R9). -/
def need (place : Place) (v : Option Byte) (use : Byte → Host.Outcome State Fault Refusal) : Host.Outcome State Fault Refusal :=
  match v with
  | some b => use b
  | none => .fault (.noValue place)

/-- The await of ACCEPT (R90) around what the request does: a faulted block has stopped for good (R135, R138; log entry 7); a busy
block does not take the request and HOST holds, which changes nothing (R172; log entry 8). -/
def whenReady (s : State) (act : Host.Outcome State Fault Refusal) : Host.Outcome State Fault Refusal :=
  match s.fault with
  | some (cause, _) => .fault (.blockFaulted cause)
  | none => if s.phase = .idle then act else .next s

end Sys2Proof.Machine
end

