-- ==== Sys2Proof/Machine/BusTransport.lean ====
section
/-! DEFINITION. The Bus Transport (40_bus_transport.md): SEL, DESEL, XFER and the end of XFER. Each check comes before any write of its
step (R137). -/

namespace Sys2Proof.Machine

/-- SEL (R96). -/
def execSel (s : State) : Host.Outcome State Fault Refusal :=
  whenReady s <|
    if s.csN = 0 then .next (raiseFault .selectWhileSelected (hreqWord 0x1 0 0) s)
    else .next (respond .ok none (openWindow s))

/-- DESEL (R97). -/
def execDesel (s : State) : Host.Outcome State Fault Refusal :=
  whenReady s <|
    if s.csN = 1 then .next (raiseFault .deselectWhileDeselected (hreqWord 0x2 0 0) s)
    else .next (respond .ok none (closeWindow s))

/-- XFER, the accept part (R98). -/
def execXfer (d : Byte) (s : State) : Host.Outcome State Fault Refusal :=
  whenReady s <|
    if s.csN = 1 then .next (raiseFault .xferOutsideWindow (hreqWord 0x3 0 d) s)
    else startThen s d (setPhase .xfer) s

/-- XFER, the completion (R99): `inb` is the reply, `s` the state after COMPLETE's own writes. -/
def completeXfer (inb : Byte) (s : State) : Host.Outcome State Fault Refusal :=
  .next (respond .ok (some inb) (setPhase .idle s))

end Sys2Proof.Machine
end

