-- ==== Sys2Proof/Machine/RegisterCodec.lean ====
section
/-! DEFINITION. The Register Interface codec (41_register_codec.md): RDREG, WRREG and their continuations. The window check comes
before the address check (60_exceptions.md R144). -/

namespace Sys2Proof.Machine

/-- RDREG, the accept part (R115, R124). -/
def execRdreg (a8 : Addr8) (s : State) : Host.Outcome State Fault Refusal :=
  whenReady s <|
    if s.csN = 0 then .next (raiseFault .regOpInsideWindow (hreqWord 0x4 a8 0) s)
    else if addrOutOfRange a8 then .next (respond .invalidAddress none s)
    else startThen s (cmd Config.rwRead (regAddr a8)) (setPhase .rdCmd) (openWindow s)

/-- WRREG, the accept part (R118, R124). -/
def execWrreg (a8 : Addr8) (d : Byte) (s : State) : Host.Outcome State Fault Refusal :=
  whenReady s <|
    if s.csN = 0 then .next (raiseFault .regOpInsideWindow (hreqWord 0x5 a8 d) s)
    else if addrOutOfRange a8 then .next (respond .invalidAddress none s)
    else startThen s (cmd Config.rwWrite (regAddr a8)) (setPhase .wrCmd) (latchValue d (openWindow s))

/-- RDREG, the command phase ends (R116): the reply is discarded, the dummy byte is sent. -/
def completeRdCmd (held s : State) : Host.Outcome State Fault Refusal :=
  startThen held Config.dummyByte (setPhase .rdData) s

/-- RDREG, the data phase ends (R117): "Return the second reply." -/
def completeRdData (inb : Byte) (s : State) : Host.Outcome State Fault Refusal :=
  .next (respond .ok (some inb) (setPhase .idle (closeWindow s)))

/-- WRREG, the command phase ends (R119): the latched value is sent and the latch emptied. -/
def completeWrCmd (held s : State) : Host.Outcome State Fault Refusal :=
  need .wdata s.wdata fun v => startThen held v (setPhase .wrData) { s with wdata := none }

/-- WRREG, the data phase ends (R120): the reply is discarded. -/
def completeWrData (s : State) : Host.Outcome State Fault Refusal :=
  .next (respond .ok none (setPhase .idle (closeWindow s)))

end Sys2Proof.Machine
end

