-- ==== Sys2Proof/Machine/Complete.lean ====
section
/-! DEFINITION. COMPLETE, BLOCK's only step (40_bus_transport.md R94). -/

namespace Sys2Proof.Machine

/-- R94: `rxne <- false; xout <- none`, before the continuation, whose own writes win. -/
def takeReply (s : State) : State := { s with rxne := false, xout := none }

/-- R94: the reply of the exchange in progress is taken and the request moves on. With `phase = IDLE` the step is not enabled. -/
def complete (s : State) : Host.Outcome State Fault Refusal :=
  need .rxbuf s.rxbuf fun inb =>
    match s.phase with
    | .idle => .next s
    | .xfer => completeXfer inb (takeReply s)
    | .rdCmd => completeRdCmd s (takeReply s)
    | .rdData => completeRdData inb (takeReply s)
    | .wrCmd => completeWrCmd s (takeReply s)
    | .wrData => completeWrData (takeReply s)

end Sys2Proof.Machine
end

