-- ==== Sys2Proof/Machine/WireCommand.lean ====
section
/-! DEFINITION. The three forms of the wire command byte (30_encoding.md R77, R78, R82; 41_register_codec.md R126). What the block does
with a command byte is to begin its exchange, "transceive(command_byte)": the `Start(cmd(rw, a))` of R115 and R118, under the await
of ACCEPT, the only step that sends one (R90), and of `Start` (R91). DEDUCED (log entry 9). -/

namespace Sys2Proof.Machine

/-- WCMD_READ with address bits 5:0 = `a`: `Start(cmd(1, a))`, as RDREG sends it (R115). -/
def execWcmdRead (a : BitVec 6) (s : State) : Host.Outcome State Fault Refusal :=
  whenReady s (startThen s (cmd Config.rwRead (addrOfParts 0 a)) id s)

/-- WCMD_WRITE with address bits 5:0 = `a` and bit 6 = 0: `Start(cmd(0, a))`, as WRREG sends it (R118). -/
def execWcmdWrite (a : BitVec 6) (s : State) : Host.Outcome State Fault Refusal :=
  whenReady s (startThen s (cmd Config.rwWrite (addrOfParts 0 a)) id s)

/-- WCMD_WRITE_HI with address bits 5:0 = `a` and bit 6 = 1: `Start(cmd(0, 64 + a))`, as WRREG sends it (R118, R126). -/
def execWcmdWriteHi (a : BitVec 6) (s : State) : Host.Outcome State Fault Refusal :=
  whenReady s (startThen s (cmd Config.rwWrite (addrOfParts 1 a)) id s)

end Sys2Proof.Machine
end

