-- ==== Sys2Proof/Machine/Dispatch.lean ====
section
/-! DEFINITION. What each instruction does: one arm per row of spec/opcode_table.json. -/

namespace Sys2Proof.Machine

def exec (i : Instr) (s : State) : Host.Outcome State Fault Refusal :=
  match i with
  | .sel => Sys2Proof.Machine.execSel s
  | .desel => Sys2Proof.Machine.execDesel s
  | .xfer d => Sys2Proof.Machine.execXfer d s
  | .rdreg a8 => Sys2Proof.Machine.execRdreg a8 s
  | .wrreg a8 d => Sys2Proof.Machine.execWrreg a8 d s
  | .wcmdRead a => Sys2Proof.Machine.execWcmdRead a s
  | .wcmdWrite a => Sys2Proof.Machine.execWcmdWrite a s
  | .wcmdWriteHi a => Sys2Proof.Machine.execWcmdWriteHi a s

end Sys2Proof.Machine
end

