-- ==== Sys2Proof/Machine/Environment.lean ====
section
/-! DEFINITION. The effects of ENV's steps (40_bus_transport.md R92, R93, R103; 60_exceptions.md R142). Their awaits are in
Machine/Agents.lean. -/

namespace Sys2Proof.Machine

/-- ENV_TX_DRAIN (R92), with `b` the byte in the transmit buffer. -/
def drainTx (b : Byte) (s : State) : State := { s with shifter := some b, txbuf := none, txe := true }

/-- ENV_RX_DONE (R93), with `o` the byte on the shifter and `inb` the byte drawn. -/
def finishRx (o inb : Byte) (s : State) : State :=
  emit (.xchg o inb) { s with rxbuf := some inb, rxne := true, shifter := none }

/-- The writes of a timeout to the exchange in progress (R142): it is abandoned. -/
def abandonExchange (o : Byte) (s : State) : State :=
  emit (.xchgAbort o)
    { s with txbuf := none, shifter := none, txe := true, rxne := false, xout := none, wdata := none }

/-- R142: a register transaction's window is closed by the block; XFER's window belongs to HOST, and stays. -/
def closeOwnWindow (p : Phase) (s : State) : State :=
  match p with
  | .idle => s
  | .xfer => s
  | .rdCmd => closeWindow s
  | .rdData => closeWindow s
  | .wrCmd => closeWindow s
  | .wrData => closeWindow s

/-- ENV_TIMEOUT's effect (R142). -/
def timeoutEffect (s : State) : Host.Outcome State Fault Refusal :=
  need .xout s.xout fun o =>
    .next (respond .busTimeout none (setPhase .idle (closeOwnWindow s.phase (abandonExchange o s))))

end Sys2Proof.Machine
end

