-- ==== Sys2Proof/Machine/Agents.lean ====
section
/-! DEFINITION. The three agents' steps (10_state.md R20): when each is enabled, what it does, and the choice of the next one. Together
`enabled` and `perform` are the spec's step relation; `nextStep` takes one enabled step. -/

namespace Sys2Proof.Machine

/-- The six steps of R20. -/
inductive Move where
  /-- ACCEPT, HOST's step (R90), of the first request word of `reqs`. -/
  | accept
  /-- COMPLETE, BLOCK's step (R94). -/
  | complete
  /-- ENV_TX_DRAIN (R92). -/
  | txDrain
  /-- ENV_RX_DONE (R93) with the byte `inb` that ENV draws. -/
  | rxDone (inb : Byte)
  /-- ENV_STALL (R103). -/
  | stall
  /-- ENV_TIMEOUT (60_exceptions.md R141). -/
  | timeout
deriving DecidableEq, Repr

/-- Whether the accept part of `i` calls `Start` in `s` (R98, R115, R118). -/
def callsStart (i : Instr) (s : State) : Bool :=
  match i with
  | .sel => false
  | .desel => false
  | .xfer _ => decide (s.csN ≠ 1)
  | .rdreg a8 => decide (s.csN ≠ 0) && !addrOutOfRange a8
  | .wrreg a8 _ => decide (s.csN ≠ 0) && !addrOutOfRange a8
  | .wcmdRead _ => true
  | .wcmdWrite _ => true
  | .wcmdWriteHi _ => true

/-- The await of `Start` (R91) inside ACCEPT(`w`) (log entry 15). -/
def acceptAwait (w : Word24) (s : State) : Bool :=
  match decodeRequest w with
  | .ok i => s.txe || !callsStart i s
  | .error _ => true

/-- The await of `Start` (R91) inside COMPLETE: the continuations of RD_CMD and WR_CMD call it (R116, R119; log entry 15). -/
def completeAwait (s : State) : Bool :=
  match s.phase with
  | .idle => false
  | .xfer => true
  | .rdCmd => s.txe
  | .rdData => true
  | .wrCmd => s.txe
  | .wrData => true

/-- An exchange waits for its reply: the common part of the awaits of ENV_STALL and ENV_TIMEOUT (R103, R141). -/
def exchangeWaits (s : State) : Bool := s.fault.isNone && decide (s.phase ≠ .idle) && !s.rxne

/-- The await of each step. -/
def enabled (cfg : Cfg) (s : State) : Move → Bool
  | .accept =>
    match s.reqs with
    | [] => false
    | w :: _ => s.fault.isNone && decide (s.phase = .idle) && acceptAwait w s
  | .complete => s.fault.isNone && s.rxne && completeAwait s
  | .txDrain => !s.txe && s.txbuf.isSome && s.shifter.isNone
  | .rxDone _ => s.shifter.isSome
  | .stall => exchangeWaits s
  | .timeout => exchangeWaits s && decide (cfg.timeoutMode = .hardened)

/-- ACCEPT(`w`) (R90): a word that decodes to no request raises ILLEGAL_REQUEST; any other is executed. -/
def acceptWord (w : Word24) (s : State) : Host.Outcome State Fault Refusal :=
  match decodeRequest w with
  | .ok i => exec i s
  | .error _ => whenReady s (.next (raiseFault .illegalRequest w s))

/-- HOST moves on to its next request: `hpc` advances by 1 at each ACCEPT, one that faults too (R31). -/
def hostAdvance (s : State) : State := { s with reqs := s.reqs.tail, hpc := s.hpc + 1 }

/-- The effect of each step; a step that is not enabled is not taken by `nextStep`. -/
def perform (m : Move) (s : State) : Host.Outcome State Fault Refusal :=
  match m with
  | .accept =>
    match s.reqs with
    | [] => .next s
    | w :: _ => acceptWord w (hostAdvance s)
  | .complete => Sys2Proof.Machine.complete s
  | .txDrain =>
    match s.txbuf with
    | some b => .next (drainTx b s)
    | none => .next s
  | .rxDone inb =>
    match s.shifter with
    | some o => .next (finishRx o inb s)
    | none => .next s
  | .stall => .next s
  | .timeout => timeoutEffect s

/-- The steps that are enabled in `s`, with `inb` the byte ENV would draw. -/
def enabledMoves (cfg : Cfg) (inb : Byte) (s : State) : List Move :=
  [Move.accept, .complete, .txDrain, .rxDone inb, .stall, .timeout].filter (enabled cfg s)

/-- One of the list: the only one, or the one that the free value `n` picks: "Any enabled step of any agent may be taken next" (R20). -/
def choose (n : Nat) : List Move → Option Move
  | [] => none
  | [m] => some m
  | m :: m' :: ms => (m :: m' :: ms)[n % (ms.length + 2)]?

/-- No agent has a step: a faulted block has stopped for good (R138; log entry 7); otherwise the machine waits, and nothing changes
(R168 "waits for the first request"; log entry 6). -/
def noStep (s : State) : Host.Outcome State Fault Refusal :=
  match s.fault with
  | some (cause, _) => .fault (.blockFaulted cause)
  | none => .next s

/-- The counter moves past the free values of this step (log entry 4). -/
def nextDraw (s : State) : State := { s with draws := s.draws + 1 }

/-- One step, given the configuration, the pick among enabled steps and ENV's byte. -/
def nextStep (cfg : Cfg) (pick : Nat) (inb : Byte) (s : State) : Host.Outcome State Fault Refusal :=
  match choose pick (enabledMoves cfg inb s) with
  | some m => perform m (nextDraw s)
  | none => noStep s

/-- HOST is given the request word `w` as its next one, in the place of the one it had (log entry 11). -/
def placeRequest (w : Word24) (s : State) : State := { s with reqs := w :: s.reqs.tail }

end Sys2Proof.Machine
end

