-- ==== Sys2Proof/Machine/Step.lean ====
section
/-! DEFINITION. One step of the machine, and where its next instruction comes from. -/

namespace Sys2Proof.Machine

/-- One step of one agent (10_state.md R20): `CFG` is the opaque configuration, the pick and ENV's byte are the free values that the
counter names. -/
def step (s : State) : Host.Outcome State Fault Refusal :=
  nextStep Config.cfg (Config.pick s.draws) (Config.reply s.draws) s

/-- `s` with the instruction of a table word as HOST's next request (log entry 11). -/
def State.withFetchWord (s : State) (nbits w : Nat) : State := placeRequest (requestOfTableWord nbits w) s

end Sys2Proof.Machine
end

