-- ==== Sys2Proof/Machine/Assembler.lean ====
section
/-! DEFINITION. The assembler syntax of request programs (30_encoding.md R83): its statements, their words and the reading of a line.
There are no pseudo-instructions (R84). -/

namespace Sys2Proof.Machine

/-- `stmt` of R83, with the numbers as written. -/
inductive AsmStmt where
  | sel
  | desel
  | xfer (byte : Nat)
  | rdreg (addr : Nat)
  | wrreg (addr : Nat) (byte : Nat)
  | word (w : Nat)
deriving DecidableEq, Repr

/-- The word of a statement; "An assembler refuses a `byte` or an `addr` out of range" (R83). -/
def assemble : AsmStmt → Option Word24
  | .sel => some 0x100000
  | .desel => some 0x200000
  | .xfer d => if d < 256 then some (BitVec.ofNat 24 (0x300000 ||| d)) else none
  | .rdreg a => if a < 128 then some (BitVec.ofNat 24 (0x400000 ||| (a <<< 8))) else none
  | .wrreg a d => if a < 128 ∧ d < 256 then some (BitVec.ofNat 24 (0x500000 ||| (a <<< 8) ||| d)) else none
  | .word w => if w < 2 ^ 24 then some (BitVec.ofNat 24 w) else none

/-- The value of a digit in any base up to 16. -/
def digitValue (c : Char) : Option Nat :=
  if '0' ≤ c ∧ c ≤ '9' then some (c.toNat - '0'.toNat)
  else if 'a' ≤ c ∧ c ≤ 'f' then some (c.toNat - 'a'.toNat + 10)
  else if 'A' ≤ c ∧ c ≤ 'F' then some (c.toNat - 'A'.toNat + 10)
  else none

/-- One more digit of a number in base `base`. -/
def addDigit (base : Nat) (acc : Option Nat) (c : Char) : Option Nat :=
  match acc, digitValue c with
  | some n, some v => if v < base then some (n * base + v) else none
  | _, _ => none

/-- At least one digit in base `base`. -/
def digits (base : Nat) : List Char → Option Nat
  | [] => none
  | c :: cs => (c :: cs).foldl (addDigit base) (some 0)

/-- `number := decimal | '0x' hex digits | '0b' binary digits`. -/
def number : List Char → Option Nat
  | '0' :: 'x' :: cs => digits 16 cs
  | '0' :: 'b' :: cs => digits 2 cs
  | cs => digits 10 cs

/-- "Mnemonics are case-insensitive." -/
def upperChar (c : Char) : Char := if 'a' ≤ c ∧ c ≤ 'z' then Char.ofNat (c.toNat - 32) else c

/-- The line without its `';' comment`. -/
def stripComment (line : List Char) : List Char := line.takeWhile (· ≠ ';')

/-- One more character, from the right, of the tokens of a line: blanks separate, a comma is a token. -/
def addChar (c : Char) (toks : List (List Char)) : List (List Char) :=
  if c = ' ' ∨ c = '\t' then [] :: toks
  else if c = ',' then [] :: [','] :: toks
  else match toks with
    | [] => [[c]]
    | t :: ts => (c :: t) :: ts

/-- The tokens of a line (log entry 19: the blanks between them). -/
def tokens (line : List Char) : List (List Char) := (line.foldr addChar [[]]).filter (fun t => !t.isEmpty)

/-- The statement of a mnemonic and its operands. -/
def stmtOf (mnemonic : List Char) (operands : List (List Char)) : Option AsmStmt :=
  match mnemonic, operands with
  | ['S', 'E', 'L'], [] => some .sel
  | ['D', 'E', 'S', 'E', 'L'], [] => some .desel
  | ['X', 'F', 'E', 'R'], [d] => (number d).map .xfer
  | ['R', 'D', 'R', 'E', 'G'], [a] => (number a).map .rdreg
  | ['W', 'R', 'R', 'E', 'G'], [a, [','], d] => (number a).bind fun x => (number d).map (.wrreg x)
  | ['.', 'W', 'O', 'R', 'D'], [w] => (number w).map .word
  | _, _ => none

/-- `line := [stmt] [';' comment]`: the words of a line, none or one; `none` if the assembler refuses it. -/
def assembleLine (line : List Char) : Option (List Word24) :=
  match tokens (stripComment line) with
  | [] => some []
  | mnemonic :: operands =>
    (stmtOf (mnemonic.map upperChar) operands).bind fun st => (assemble st).map fun w => [w]

/-- The request program of a list of lines. -/
def assembleProgram : List (List Char) → Option (List Word24)
  | [] => some []
  | line :: lines => (assembleLine line).bind fun ws => (assembleProgram lines).map fun rest => ws ++ rest

end Sys2Proof.Machine
end

