-- ==== Sys2Proof/Machine/EchoDev.lean ====
section
/-! DEFINITION. The test double `EchoDev` of 95_test_vectors.md section 2.1, which 41_register_codec.md R127 names: a strategy for the
bytes ENV draws. It is no part of the block (20_memory.md R51) and `step` does not use it (log entry 16). -/

namespace Sys2Proof.Machine

/-- `EchoDev` state: 64 registers, the index of the byte in the window, the command byte. -/
structure EchoDev where
  regs : BitVec 6 → Byte
  idx : Nat
  cur : Byte

/-- "on CS_ASSERT: idx <- 0". -/
def echoSelect (e : EchoDev) : EchoDev := { e with idx := 0 }

/-- "regs[a] <- v". -/
def echoStore (a : BitVec 6) (v : Byte) (e : EchoDev) : EchoDev :=
  { e with regs := fun r => if r = a then v else e.regs r }

/-- The reply `inb` "on ENV_RX_DONE with o"; it does not depend on `o`. -/
def echoReply (e : EchoDev) : Byte :=
  if e.idx = 1 ∧ wireRw e.cur = 1 then e.regs (wireAddr e.cur) else 0x00

/-- What `EchoDev` becomes "on ENV_RX_DONE with o". -/
def echoAfter (o : Byte) (e : EchoDev) : EchoDev :=
  if e.idx = 0 then { e with cur := o, idx := 1 }
  else if e.idx = 1 then
    if wireRw e.cur = 1 then { e with idx := 2 } else { echoStore (wireAddr e.cur) o e with idx := 2 }
  else { e with idx := e.idx + 1 }

/-- The device's view of one step from `s` to `t`: a falling chip-select, an exchange, or nothing. -/
def echoSees (m : Move) (s t : State) (e : EchoDev) : EchoDev :=
  match m, s.shifter with
  | .accept, _ => if s.csN = 1 ∧ t.csN = 0 then echoSelect e else e
  | .rxDone _, some o => echoAfter o e
  | _, _ => e

/-- The step taken when `EchoDev` is the device, which never stalls: HOST's, BLOCK's, the drain, or the reply it chooses. -/
def echoMove (cfg : Cfg) (s : State) (e : EchoDev) : Option Move :=
  if enabled cfg s .accept then some .accept
  else if enabled cfg s .complete then some .complete
  else if enabled cfg s .txDrain then some .txDrain
  else match s.shifter with
    | some _ => some (.rxDone (echoReply e))
    | none => none

/-- `n` steps of the block with `EchoDev`; it stands still where no step is left. -/
def echoRun (cfg : Cfg) : Nat → State × EchoDev → State × EchoDev
  | 0, p => p
  | n + 1, (s, e) =>
    match echoMove cfg s e with
    | none => (s, e)
    | some m =>
      match perform m s with
      | .next t => echoRun cfg n (t, echoSees m s t e)
      | .fault _ => (s, e)
      | .refused _ => (s, e)

end Sys2Proof.Machine
end

