-- ==== Sys2Proof/Machine/Flags.lean ====
section
/-! DEFINITION. The flags of 10_state.md R25, R26 and R32 that are views of the state, and the output ports of R35. `txe`, `rxne` and
the fault record are fields themselves. The block has no condition codes and no arithmetic flags (R32). -/

namespace Sys2Proof.Machine

/-- `active = (cs_n = 0)` (R25). -/
def active (s : State) : Bool := decide (s.csN = 0)

/-- `busy = (phase ≠ IDLE)` (R26). -/
def busy (s : State) : Bool := decide (s.phase ≠ .idle)

/-- The port `req_ready` (R35): 1 iff `phase = IDLE` and `fault = none`. -/
def reqReady (s : State) : Bool := decide (s.phase = .idle ∧ s.fault = none)

/-- The codes of R28. -/
def faultCauseCode : FaultCause → BitVec 3
  | .illegalRequest => 1
  | .selectWhileSelected => 2
  | .deselectWhileDeselected => 3
  | .xferOutsideWindow => 4
  | .regOpInsideWindow => 5

/-- The port `fault_code` (R35): 0 if `fault = none`. -/
def faultCode (s : State) : BitVec 3 :=
  match s.fault with
  | some (cause, _) => faultCauseCode cause
  | none => 0

/-- The port `CS_N` (R35). -/
def csPin (s : State) : Bit := s.csN

/-- The port `rsp` (R35): "the response appended to `rsp_log`". DESIGN CHOICE (log entry 23): the spec is silent on what the port shows
at reset (R165 lists the other ports) and in a state where no response was just appended; the model shows the last one appended,
and none before the first. -/
def rspPort (s : State) : Option Response := s.rspLog.getLast?

/-- The source's two states of the Register Interface (R26, 90_conflicts.md C3); XFER belongs to the Bus Transport. -/
inductive InterfaceState where
  | idle
  | busyWithinWindow
deriving DecidableEq, Repr

/-- R26: "Those two states are a view of `phase`". -/
def interfaceState : Phase → Option InterfaceState
  | .idle => some .idle
  | .xfer => none
  | .rdCmd => some .busyWithinWindow
  | .rdData => some .busyWithinWindow
  | .wrCmd => some .busyWithinWindow
  | .wrData => some .busyWithinWindow

end Sys2Proof.Machine
end

