-- ==== Sys2Proof/Safety.lean ====
section
/-! DEFINITION. What the claims are stated in: the invariants of 10_state.md R37, the trace properties of 40_bus_transport.md R100 and
R101, runs and fairness (10_state.md R20, 60_exceptions.md R143), the launch premises and the end of a run (70_reset_and_hazards.md
R170, R171). -/

namespace Sys2Proof

open Sys2Proof.Machine

/-- 10_state.md R37, items 1 to 8, in order. -/
abbrev StateInv (s : State) : Prop :=
  (s.phase ≠ .idle → s.csN = 0) ∧
  (s.phase = .idle ↔ s.xout = none) ∧
  (s.phase = .idle → s.txbuf = none ∧ s.shifter = none ∧ s.txe = true ∧ s.rxne = false) ∧
  (s.phase ≠ .idle → s.rxne = false →
    s.xout ≠ none ∧ ((s.txbuf = s.xout ∧ s.shifter = none) ∨ (s.txbuf = none ∧ s.shifter = s.xout))) ∧
  (s.rxne = true → s.txbuf = none ∧ s.shifter = none ∧ s.rxbuf ≠ none) ∧
  (s.txe = false ↔ s.txbuf ≠ none) ∧
  (s.wdata ≠ none ↔ s.phase = .wrCmd) ∧
  (s.fault ≠ none → s.phase = .idle)

/-- One bus event seen by an observer who knows whether a window is open; `none` is a breach of R100 or R101. -/
def windowStep (w : Option Bool) (e : BusEvent) : Option Bool :=
  match w, e with
  | some false, .csAssert => some true
  | some true, .csDeassert => some false
  | some true, .xchg _ _ => some true
  | some true, .xchgAbort _ => some true
  | _, _ => none

/-- Whether a window is open after the trace, from reset; `none` if CS events do not alternate starting with CS_ASSERT (R101) or an
exchange lies outside a window (R100). -/
def traceWindow (trace : List BusEvent) : Option Bool := trace.foldl windowStep (some false)

/-- R100 and R101, with the level of the chip-select line. -/
abbrev TraceInv (s : State) : Prop := traceWindow s.trace = some (active s)

/-- Every request HOST has issued has one response, is in progress, or faulted (10_state.md R34, 20_memory.md R61). -/
abbrev RequestCountInv (s : State) : Prop :=
  s.hpc = s.rspLog.length + (if s.phase = .idle then 0 else 1) + (if s.fault = none then 0 else 1)

/-- Response data goes with the status OK only (R34, R76). -/
abbrev ResponseDataInv (s : State) : Prop := ∀ r ∈ s.rspLog, r.status ≠ .ok → r.data = none

/-- The state after a list of steps, each of them enabled when it is taken; `none` if one is not. -/
def runMoves (cfg : Cfg) : List Move → State → Option State
  | [], s => some s
  | m :: ms, s =>
    if enabled cfg s m then
      match perform m s with
      | .next t => runMoves cfg ms t
      | .fault _ => none
      | .refused _ => none
    else none

/-- A complete run: at each point one enabled step is taken, or no step is enabled and nothing changes. -/
def IsRun (cfg : Cfg) (run : Nat → State) (moves : Nat → Option Move) : Prop :=
  ∀ n, match moves n with
    | some m => enabled cfg (run n) m = true ∧ perform m (run n) = .next (run (n + 1))
    | none => (∀ m, enabled cfg (run n) m = false) ∧ run (n + 1) = run n

/-- Weak fairness of the steps `p`: not enabled for ever without being taken. -/
def WeaklyFair (cfg : Cfg) (p : Move → Prop) (run : Nat → State) (moves : Nat → Option Move) : Prop :=
  ∀ n, (∀ k, n ≤ k → ∃ m, p m ∧ enabled cfg (run k) m = true) → ∃ k, n ≤ k ∧ ∃ m, p m ∧ moves k = some m

/-- HOST is weakly fair (10_state.md R20). -/
def HostFair (cfg : Cfg) (run : Nat → State) (moves : Nat → Option Move) : Prop :=
  WeaklyFair cfg (fun m => m = .accept) run moves

/-- BLOCK is weakly fair (R20). -/
def BlockFair (cfg : Cfg) (run : Nat → State) (moves : Nat → Option Move) : Prop :=
  WeaklyFair cfg (fun m => m = .complete) run moves

/-- ENV_TIMEOUT is weakly fair in hardened mode (60_exceptions.md R143). -/
def TimeoutFair (cfg : Cfg) (run : Nat → State) (moves : Nat → Option Move) : Prop :=
  WeaklyFair cfg (fun m => m = .timeout) run moves

/-- The launch premise `DeviceResponsive` (70_reset_and_hazards.md R170): ENV_TX_DRAIN and ENV_RX_DONE are weakly fair. -/
def DeviceResponsive (cfg : Cfg) (run : Nat → State) (moves : Nat → Option Move) : Prop :=
  WeaklyFair cfg (fun m => m = .txDrain) run moves ∧ WeaklyFair cfg (fun m => ∃ inb, m = .rxDone inb) run moves

/-- The launch premise `NoFaultRecorded` (R170). -/
abbrev NoFaultRecorded (s : State) : Prop := s.fault = none

/-- The launch premise `CleanEntry` (R170): the block state is the reset state of R165; HOST's program is any. -/
abbrev CleanEntry (s : State) : Prop :=
  s = { State.reset with reqs := s.reqs, hpc := 0, draws := s.draws }

/-- The block can take a request: `req_ready = 1` (10_state.md R35). -/
abbrev Ready (s : State) : Prop := s.fault = none ∧ s.phase = .idle

/-- The length of HOST's program (R171). -/
def programLength (s : State) : Nat := s.hpc + s.reqs.length

/-- A run has ended well (R171). -/
abbrev EndedWell (s : State) : Prop :=
  s.hpc = programLength s ∧ s.phase = .idle ∧ s.fault = none ∧ s.csN = 1

/-- A bad end (R171): no agent has a step and the run has not ended well. -/
def BadEnd (cfg : Cfg) (s : State) : Prop := (∀ m, enabled cfg s m = false) ∧ ¬ EndedWell s

/-- The observation of a run that ended well (R171). -/
def observation (s : State) : List BusEvent × List Response := (s.trace, s.rspLog)

end Sys2Proof
end

