-- ==== Sys2Proof/Certificates/Slice0/Obligations.lean ====
section
/-! DEFINITION. The statements for the provers, from the numbered rules of spec/. `Ready s` is the await of ACCEPT (R90); `StateInv`
is R37. -/

open Sys2Proof Sys2Proof.Machine

/-- R165: the reset value of every field of R23, and the ports then. -/
def Obligations.ResetLeavesTheSpecsValues : Prop :=
  State.reset.csN = 1 ∧ State.reset.phase = .idle ∧ State.reset.wdata = none ∧ State.reset.xout = none ∧
  State.reset.txbuf = none ∧ State.reset.txe = true ∧ State.reset.shifter = none ∧ State.reset.rxbuf = none ∧
  State.reset.rxne = false ∧ State.reset.fault = none ∧ State.reset.trace = [] ∧ State.reset.rspLog = [] ∧
  reqReady State.reset = true ∧ busy State.reset = false ∧ faultCode State.reset = 0 ∧ csPin State.reset = 1

/-- The invariants hold at reset (derived: R37, R100, R101, R61, R34). -/
def Obligations.ResetMeetsEveryInvariant : Prop :=
  StateInv State.reset ∧ TraceInv State.reset ∧ RequestCountInv State.reset ∧ ResponseDataInv State.reset

/-- R96: the word `0x100000`, and what SEL does with the window closed and open. -/
def Obligations.SelOpensTheWindow : Prop :=
  decodeRequest 0x100000 = .ok .sel ∧
  ∀ s, Ready s →
    (s.csN = 1 → exec .sel s = .next { s with
      csN := 0, trace := s.trace ++ [.csAssert], rspLog := s.rspLog ++ [⟨.ok, none⟩] }) ∧
    (s.csN = 0 → exec .sel s = .next { s with fault := some (.selectWhileSelected, 0x100000) })

/-- R97: the word `0x200000`, and what DESEL does with the window open and closed. -/
def Obligations.DeselClosesTheWindow : Prop :=
  decodeRequest 0x200000 = .ok .desel ∧
  ∀ s, Ready s →
    (s.csN = 0 → exec .desel s = .next { s with
      csN := 1, trace := s.trace ++ [.csDeassert], rspLog := s.rspLog ++ [⟨.ok, none⟩] }) ∧
    (s.csN = 1 → exec .desel s = .next { s with fault := some (.deselectWhileDeselected, 0x200000) })

/-- R98, the accept part, with `Start(d)` of R91; the timeout of the exchange is TimeoutAbandonsTheExchange. -/
def Obligations.XferStartsAnExchange : Prop :=
  ∀ s d, Ready s →
    (s.csN = 0 → s.txe = true → exec (.xfer d) s = .next { s with
      txbuf := some d, txe := false, xout := some d, phase := .xfer }) ∧
    (s.csN = 1 → exec (.xfer d) s = .next { s with
      fault := some (.xferOutsideWindow, 0x300000#24 ||| d.setWidth 24) })

/-- R99, with the writes of COMPLETE (R94). -/
def Obligations.XferEndsWithItsReply : Prop :=
  ∀ cfg s inb, s.fault = none → s.phase = .xfer → s.rxne = true → s.rxbuf = some inb →
    enabled cfg s .complete = true ∧
    perform .complete s = .next { s with
      rxne := false, xout := none, phase := .idle, rspLog := s.rspLog ++ [⟨.ok, some inb⟩] }

/-- R115 and R124, the accept part of RDREG, with the formula of R78 for the command byte. -/
def Obligations.RdregOpensAndSendsCommand : Prop :=
  ∀ s a8, Ready s →
    (s.csN = 1 → a8.toNat < 128 → s.txe = true → exec (.rdreg a8) s = .next { s with
      csN := 0, trace := s.trace ++ [.csAssert],
      txbuf := some (BitVec.ofNat 8 ((1 <<< 7) ||| (a8.toNat <<< 1))), txe := false,
      xout := some (BitVec.ofNat 8 ((1 <<< 7) ||| (a8.toNat <<< 1))), phase := .rdCmd }) ∧
    (s.csN = 1 → 128 ≤ a8.toNat → exec (.rdreg a8) s = .next { s with
      rspLog := s.rspLog ++ [⟨.invalidAddress, none⟩] }) ∧
    (s.csN = 0 → exec (.rdreg a8) s = .next { s with
      fault := some (.regOpInsideWindow, 0x400000#24 ||| (a8.setWidth 24 <<< 8)) })

/-- R116, with the writes of COMPLETE (R94): whatever the reply, the dummy byte is sent. -/
def Obligations.RdregCommandPhaseEnds : Prop :=
  ∀ cfg s inb, s.fault = none → s.phase = .rdCmd → s.rxne = true → s.rxbuf = some inb → s.txe = true →
    enabled cfg s .complete = true ∧
    perform .complete s = .next { s with
      rxne := false, txbuf := some 0x00, txe := false, xout := some 0x00, phase := .rdData }

/-- R117, with the writes of COMPLETE (R94). -/
def Obligations.RdregDataPhaseEnds : Prop :=
  ∀ cfg s inb, s.fault = none → s.phase = .rdData → s.rxne = true → s.rxbuf = some inb →
    enabled cfg s .complete = true ∧
    perform .complete s = .next { s with
      rxne := false, xout := none, csN := 1, trace := s.trace ++ [.csDeassert], phase := .idle,
      rspLog := s.rspLog ++ [⟨.ok, some inb⟩] }

/-- R118 and R124, the accept part of WRREG. -/
def Obligations.WrregOpensAndSendsCommand : Prop :=
  ∀ s a8 d, Ready s →
    (s.csN = 1 → a8.toNat < 128 → s.txe = true → exec (.wrreg a8 d) s = .next { s with
      csN := 0, trace := s.trace ++ [.csAssert], wdata := some d,
      txbuf := some (BitVec.ofNat 8 ((0 <<< 7) ||| (a8.toNat <<< 1))), txe := false,
      xout := some (BitVec.ofNat 8 ((0 <<< 7) ||| (a8.toNat <<< 1))), phase := .wrCmd }) ∧
    (s.csN = 1 → 128 ≤ a8.toNat → exec (.wrreg a8 d) s = .next { s with
      rspLog := s.rspLog ++ [⟨.invalidAddress, none⟩] }) ∧
    (s.csN = 0 → exec (.wrreg a8 d) s = .next { s with
      fault := some (.regOpInsideWindow, 0x500000#24 ||| (a8.setWidth 24 <<< 8) ||| d.setWidth 24) })

/-- R119, with the writes of COMPLETE (R94): whatever the reply, the latched value is sent. -/
def Obligations.WrregCommandPhaseEnds : Prop :=
  ∀ cfg s inb v, s.fault = none → s.phase = .wrCmd → s.rxne = true → s.rxbuf = some inb → s.txe = true →
    s.wdata = some v →
    enabled cfg s .complete = true ∧
    perform .complete s = .next { s with
      rxne := false, wdata := none, txbuf := some v, txe := false, xout := some v, phase := .wrData }

/-- R120, with the writes of COMPLETE (R94). -/
def Obligations.WrregDataPhaseEnds : Prop :=
  ∀ cfg s inb, s.fault = none → s.phase = .wrData → s.rxne = true → s.rxbuf = some inb →
    enabled cfg s .complete = true ∧
    perform .complete s = .next { s with
      rxne := false, xout := none, csN := 1, trace := s.trace ++ [.csDeassert], phase := .idle,
      rspLog := s.rspLog ++ [⟨.ok, none⟩] }

/-- R92. -/
def Obligations.TxDrainMovesByteToShifter : Prop :=
  ∀ cfg s,
    (enabled cfg s .txDrain = true ↔ s.txe = false ∧ s.txbuf ≠ none ∧ s.shifter = none) ∧
    ∀ b, s.txe = false → s.txbuf = some b → s.shifter = none →
      perform .txDrain s = .next { s with shifter := some b, txbuf := none, txe := true }

/-- R93: any byte may come back. -/
def Obligations.RxDoneReceivesAnyByte : Prop :=
  ∀ cfg s inb,
    (enabled cfg s (.rxDone inb) = true ↔ s.shifter ≠ none) ∧
    ∀ o, s.shifter = some o →
      perform (.rxDone inb) s = .next { s with
        rxbuf := some inb, rxne := true, shifter := none, trace := s.trace ++ [.xchg o inb] }

/-- R103. -/
def Obligations.StallChangesNothing : Prop :=
  ∀ cfg s,
    (enabled cfg s .stall = true ↔ s.fault = none ∧ s.phase ≠ .idle ∧ s.rxne = false) ∧
    perform .stall s = .next s

/-- R142, with the await of R141: the exchange is abandoned, a register transaction's window is closed after it, XFER's window stays
open, and no late reply is delivered. -/
def Obligations.TimeoutAbandonsTheExchange : Prop :=
  ∀ cfg s o, cfg.timeoutMode = .hardened → s.fault = none → s.phase ≠ .idle → s.rxne = false → s.xout = some o →
    enabled cfg s .timeout = true ∧
    ∃ t, perform .timeout s = .next t ∧
      t = { s with
        txbuf := none, shifter := none, txe := true, rxne := false, xout := none, wdata := none, phase := .idle,
        csN := if s.phase = .xfer then s.csN else 1,
        trace := s.trace ++ .xchgAbort o :: (if s.phase = .xfer then [] else [.csDeassert]),
        rspLog := s.rspLog ++ [⟨.busTimeout, none⟩] } ∧
      ∀ inb, enabled cfg t (.rxDone inb) = false

/-- R141: ENV_TIMEOUT exists in hardened mode only. -/
def Obligations.TimeoutNeedsHardenedMode : Prop :=
  ∀ cfg s, enabled cfg s .timeout = true ↔
    cfg.timeoutMode = .hardened ∧ s.fault = none ∧ s.phase ≠ .idle ∧ s.rxne = false

/-- R144: the check order at ACCEPT, with the word in the fault record (R136, R137). -/
def Obligations.AcceptChecksInOrder : Prop :=
  ∀ s w, Ready s →
    (∀ r, decodeRequest w = .error r → acceptWord w s = .next { s with fault := some (.illegalRequest, w) }) ∧
    (decodeRequest w = .ok .sel → s.csN = 0 →
      acceptWord w s = .next { s with fault := some (.selectWhileSelected, w) }) ∧
    (decodeRequest w = .ok .desel → s.csN = 1 →
      acceptWord w s = .next { s with fault := some (.deselectWhileDeselected, w) }) ∧
    (∀ d, decodeRequest w = .ok (.xfer d) → s.csN = 1 →
      acceptWord w s = .next { s with fault := some (.xferOutsideWindow, w) }) ∧
    (∀ a8 d, decodeRequest w = .ok (.rdreg a8) ∨ decodeRequest w = .ok (.wrreg a8 d) →
      (s.csN = 0 → acceptWord w s = .next { s with fault := some (.regOpInsideWindow, w) }) ∧
      (s.csN = 1 → 128 ≤ a8.toNat →
        acceptWord w s = .next { s with rspLog := s.rspLog ++ [⟨.invalidAddress, none⟩] }))

/-- A step runs the decoded request: ACCEPT is then the only enabled step (R37), HOST moves on to its next request (R31), and the
counter of free values, the model's own (log entry 4), advances. -/
def Obligations.StepRunsTheDecodedRequest : Prop :=
  ∀ s w ws i, StateInv s → Ready s → s.reqs = w :: ws → decodeRequest w = .ok i →
    step s = exec i { s with reqs := ws, hpc := s.hpc + 1, draws := s.draws + 1 }

/-- A step at a request word that spells no request raises ILLEGAL_REQUEST (R90, R136) with that word (R137). -/
def Obligations.StepRaisesIllegalRequest : Prop :=
  ∀ s w ws r, StateInv s → Ready s → s.reqs = w :: ws → decodeRequest w = .error r →
    step s = .next { s with
      reqs := ws, hpc := s.hpc + 1, draws := s.draws + 1, fault := some (.illegalRequest, w) }

/-- The three wire command forms begin the exchange of their byte (R78, R82, R91); that this is their meaning is the model's
reading of the opcode table (DEDUCED, log entry 9). -/
def Obligations.WireCommandsStartTheirByte : Prop :=
  ∀ s (a : BitVec 6), Ready s → s.txe = true →
    exec (.wcmdRead a) s = .next { s with
      txbuf := some (0x80#8 ||| (a.setWidth 8 <<< 1)), txe := false, xout := some (0x80#8 ||| (a.setWidth 8 <<< 1)) } ∧
    exec (.wcmdWrite a) s = .next { s with
      txbuf := some (a.setWidth 8 <<< 1), txe := false, xout := some (a.setWidth 8 <<< 1) } ∧
    exec (.wcmdWriteHi a) s = .next { s with
      txbuf := some (0x80#8 ||| (a.setWidth 8 <<< 1)), txe := false, xout := some (0x80#8 ||| (a.setWidth 8 <<< 1)) }

/-- RDREG and WRREG run the wire command of their address inside the window they open (R115, R118, R126; the wire commands' meaning is
DEDUCED, log entry 9). -/
def Obligations.RequestsRunTheirWireCommand : Prop :=
  ∀ s (a8 : Addr8) d, Ready s → s.csN = 1 → a8.toNat < 128 → s.txe = true →
    (∃ t, exec (.wcmdRead (a8.setWidth 6)) (openWindow s) = .next t ∧
      exec (.rdreg a8) s = .next { t with phase := .rdCmd }) ∧
    (∃ t, exec (if a8.toNat < 64 then .wcmdWrite (a8.setWidth 6) else .wcmdWriteHi (a8.setWidth 6)) (openWindow s) = .next t ∧
      exec (.wrreg a8 d) s = .next { t with wdata := some d, phase := .wrCmd })

/-- R77, with the note on bit 7 for the addresses 64 to 127 (R78). -/
def Obligations.CommandByteFields : Prop :=
  ∀ (rw : Bit) (a : Addr7),
    cmd rw a = BitVec.ofNat 8 ((rw.toNat <<< 7) ||| (a.toNat <<< 1)) ∧
    (cmd rw a).toNat < 256 ∧ ((rw.toNat <<< 7) ||| (a.toNat <<< 1)) < 256 ∧
    (cmd rw a).extractLsb' 0 1 = 0 ∧
    (cmd rw a).extractLsb' 1 6 = a.extractLsb' 0 6 ∧
    (cmd rw a).extractLsb' 7 1 = rw ||| a.extractLsb' 6 1 ∧
    (a.toNat < 64 → (cmd rw a).extractLsb' 7 1 = rw)

/-- A few words of 30_encoding.md R73 and 95_test_vectors.md 2.2 and 2.3, bit by bit. The wire bytes are decoded with the R/W intent of
the transaction that sends them, and 0x80 is WCMD_WRITE_HI only by the intent of a write: the model's own reading (DEDUCED, log entry
10). -/
def Obligations.SpecWordsDecode : Prop :=
  decodeRequest 0b000100000000000000000000 = .ok .sel ∧
  decodeRequest 0b001000000000000000000000 = .ok .desel ∧
  decodeRequest 0b001100000000000010100101 = .ok (.xfer 0xA5) ∧
  decodeRequest 0b010000000000011100000000 = .ok (.rdreg 7) ∧
  decodeRequest 0b010100000001011000000101 = .ok (.wrreg 0x16 0x05) ∧
  decodeRequest 0b000100000000000000000001 = .error .dataField ∧
  decodeRequest 0b011000000000000000000000 = .error .reservedOp ∧
  decodeCommand 1 0b10001110 = .ok (.wcmdRead 7) ∧
  decodeCommand 0 0b00101100 = .ok (.wcmdWrite 22) ∧
  decodeCommand 0 0b10000000 = .ok (.wcmdWriteHi 0)

/-- Decode and encode agree, both ways and for every instruction: a code decodes to exactly the instruction it encodes. -/
def Obligations.DecodeAndEncodeAgree : Prop :=
  ∀ (c : Code) (i : Instr), decode c = .ok i ↔ encode i = c

/-- R80: the legal request words are those of the five rows of the opcode table, and no others. -/
def Obligations.LegalWordsAreTheTableRows : Prop :=
  ∀ w : Word24, (∃ i, decodeRequest w = .ok i) ↔
    (w = 0x100000 ∨ w = 0x200000 ∨ w &&& 0xFFFF00 = 0x300000 ∨ w &&& 0xFF00FF = 0x400000 ∨ w &&& 0xFF0000 = 0x500000)

/-- R126 and 90_conflicts.md C1: for addresses 64 to 127 a read, a write and a read of the address less 64 are one byte, and the bus
cannot tell WCMD_WRITE_HI from WCMD_READ. -/
def Obligations.HighAddressesCollideOnTheWire : Prop :=
  ∀ (a : Addr7) (lo : BitVec 6) (s : State), 64 ≤ a.toNat → lo = a.setWidth 6 →
    cmd 1 a = cmd 1 (a - 64) ∧ cmd 0 a = cmd 1 a ∧
    encode (.wcmdRead lo) = .wcmd 1 (cmd 1 a) ∧ encode (.wcmdWriteHi lo) = .wcmd 0 (cmd 1 a) ∧
    decodeWire (cmd 0 a) = .ok (.wcmdRead lo) ∧
    exec (.wcmdWriteHi lo) s = exec (.wcmdRead lo) s

/-- R58, R78: among the addresses 0 to 63 the command byte fixes the intent and the address. -/
def Obligations.LowAddressesAreUnambiguous : Prop :=
  ∀ (rw rw' : Bit) (a a' : Addr7), a.toNat < 64 → a'.toNat < 64 → cmd rw a = cmd rw' a' → rw = rw' ∧ a = a'

/-- R137 with R136 and R139: a fault is taken by ACCEPT only, records the word that raised it, changes nothing else (but HOST's index,
R31), and once recorded it stays. -/
def Obligations.FaultEntryIsPrecise : Prop :=
  ∀ cfg m s t, enabled cfg s m = true → perform m s = .next t → t.fault ≠ s.fault →
    m = .accept ∧ s.fault = none ∧
    ∃ c w ws, s.reqs = w :: ws ∧ t = { s with reqs := ws, hpc := s.hpc + 1, fault := some (c, w) }

/-- The frame of every instruction: the fields it may write, put back, give the state before. -/
def Obligations.InstructionFrames : Prop :=
  ∀ s t a8 d a,
    (exec .sel s = .next t ∨ exec .desel s = .next t →
      { t with csN := s.csN, trace := s.trace, rspLog := s.rspLog, fault := s.fault } = s) ∧
    (exec (.xfer d) s = .next t →
      { t with txbuf := s.txbuf, txe := s.txe, xout := s.xout, phase := s.phase, fault := s.fault } = s) ∧
    (exec (.rdreg a8) s = .next t →
      { t with csN := s.csN, trace := s.trace, rspLog := s.rspLog, txbuf := s.txbuf, txe := s.txe, xout := s.xout,
               phase := s.phase, fault := s.fault } = s) ∧
    (exec (.wrreg a8 d) s = .next t →
      { t with csN := s.csN, trace := s.trace, rspLog := s.rspLog, txbuf := s.txbuf, txe := s.txe, xout := s.xout,
               phase := s.phase, fault := s.fault, wdata := s.wdata } = s) ∧
    (exec (.wcmdRead a) s = .next t ∨ exec (.wcmdWrite a) s = .next t ∨ exec (.wcmdWriteHi a) s = .next t →
      { t with txbuf := s.txbuf, txe := s.txe, xout := s.xout } = s)

/-- R32: which steps set and clear each flag. -/
def Obligations.FlagsChangeOnlyAsTabled : Prop :=
  ∀ cfg m s t, enabled cfg s m = true → perform m s = .next t →
    (active s = false → active t = true → m = .accept ∧ ∃ w ws i, s.reqs = w :: ws ∧ decodeRequest w = .ok i ∧
      (i = .sel ∨ (∃ a, i = .rdreg a) ∨ ∃ a d, i = .wrreg a d)) ∧
    (active s = true → active t = false →
      (m = .accept ∧ ∃ w ws, s.reqs = w :: ws ∧ decodeRequest w = .ok .desel) ∨
      (m = .complete ∧ (s.phase = .rdData ∨ s.phase = .wrData)) ∨ (m = .timeout ∧ s.phase ≠ .xfer)) ∧
    (busy s = false → busy t = true → m = .accept ∧ ∃ w ws i, s.reqs = w :: ws ∧ decodeRequest w = .ok i ∧
      ((∃ d, i = .xfer d) ∨ (∃ a, i = .rdreg a) ∨ ∃ a d, i = .wrreg a d)) ∧
    (busy s = true → busy t = false → m = .complete ∨ m = .timeout) ∧
    (s.txe = false → t.txe = true → m = .txDrain ∨ m = .timeout) ∧
    (s.txe = true → t.txe = false → m = .accept ∨ m = .complete) ∧
    (s.rxne = false → t.rxne = true → ∃ inb, m = .rxDone inb) ∧
    (s.rxne = true → t.rxne = false → m = .complete) ∧
    (s.fault = none → t.fault ≠ none → m = .accept) ∧
    (s.fault ≠ none → t.fault = s.fault)

/-- R33, R34, R60: no event and no response is dropped, repeated or reordered: a step only appends. -/
def Obligations.LogsOnlyGrow : Prop :=
  ∀ cfg m s t, enabled cfg s m = true → perform m s = .next t →
    ∃ es rs, t.trace = s.trace ++ es ∧ es.length ≤ 2 ∧ t.rspLog = s.rspLog ++ rs ∧ rs.length ≤ 1

/-- R138: a faulted block has no step, keeps its chip-select level and shows the cause; that `step` answers the fault
`blockFaulted` there is the model's choice (log entry 7). -/
def Obligations.FaultedBlockStops : Prop :=
  ∀ s c w, StateInv s → s.fault = some (c, w) →
    (∀ cfg m, enabled cfg s m = false) ∧ step s = .fault (.blockFaulted c) ∧
    (∀ i, exec i s = .fault (.blockFaulted c)) ∧
    faultCode s = faultCauseCode c ∧ reqReady s = false ∧ csPin s = s.csN

/-- R90, R172: a busy block takes no request; that `exec` then answers the state unchanged is the model's choice (log entry 8). -/
def Obligations.BusyBlockTakesNoRequest : Prop :=
  ∀ cfg s, s.fault = none → s.phase ≠ .idle →
    enabled cfg s .accept = false ∧ reqReady s = false ∧ busy s = true ∧ ∀ i, exec i s = .next s

/-- R91: with the transmit buffer full, `Start` holds the step that calls it; that `exec` then answers the state unchanged is the
model's choice (log entry 8). -/
def Obligations.FullTransmitBufferHolds : Prop :=
  ∀ cfg s i w ws, Ready s → s.txe = false → callsStart i s = true →
    exec i s = .next s ∧ (s.reqs = w :: ws → decodeRequest w = .ok i → enabled cfg s .accept = false)

/-- R145 and R37: which steps are enabled while a request is in progress. -/
def Obligations.EnabledStepsWhileBusy : Prop :=
  ∀ cfg s, StateInv s → s.phase ≠ .idle →
    (s.rxne = true → ∀ m, enabled cfg s m = true ↔ m = .complete) ∧
    (s.rxne = false →
      enabled cfg s .accept = false ∧ enabled cfg s .complete = false ∧ enabled cfg s .stall = true ∧
      (enabled cfg s .timeout = true ↔ cfg.timeoutMode = .hardened) ∧
      ∀ inb, enabled cfg s .txDrain = !enabled cfg s (.rxDone inb))

/-- R168, R171: with no step enabled and no fault the machine waits; that `step` answers the state unchanged there is the model's
choice (log entry 6). -/
def Obligations.IdleMachineWaits : Prop :=
  ∀ s, StateInv s → Ready s → s.reqs = [] → (∀ cfg m, enabled cfg s m = false) ∧ step s = .next s

/-- Every step keeps the invariants of R37. -/
def Obligations.StepKeepsStateInv : Prop :=
  ∀ s t, StateInv s → step s = .next t → StateInv t

/-- Every step keeps R100 and R101: every exchange event lies inside a window, and the chip-select events alternate. -/
def Obligations.StepKeepsTraceInv : Prop :=
  ∀ s t, StateInv s → TraceInv s → step s = .next t → TraceInv t

/-- Every step keeps R61 and R34: each request issued has one response, is in progress, or faulted. -/
def Obligations.StepKeepsRequestCount : Prop :=
  ∀ s t, StateInv s → RequestCountInv s → step s = .next t → RequestCountInv t

/-- Every step keeps R34 and R76: response data goes with OK only. -/
def Obligations.StepKeepsResponseData : Prop :=
  ∀ s t, ResponseDataInv s → step s = .next t → ResponseDataInv t

/-- Every enabled step of every agent, in both timeout modes, whatever byte ENV draws, keeps all four invariants. -/
def Obligations.EveryAgentStepKeepsTheInvariants : Prop :=
  ∀ cfg m s t, StateInv s → TraceInv s → RequestCountInv s → ResponseDataInv s →
    enabled cfg s m = true → perform m s = .next t →
    StateInv t ∧ TraceInv t ∧ RequestCountInv t ∧ ResponseDataInv t

/-- R9 with R37: a step from a state that meets the invariants reads no place that holds no value. -/
def Obligations.StepReadsNoMissingValue : Prop :=
  ∀ s p, StateInv s → step s ≠ .fault (.noValue p)

/-- R20: "Any enabled step of any agent may be taken next": each one is the next step for some pick and some byte drawn. -/
def Obligations.EveryEnabledStepMayBeNext : Prop :=
  ∀ cfg s m, enabled cfg s m = true →
    ∃ pick inb, nextStep cfg pick inb s = perform m { s with draws := s.draws + 1 }

/-- R121, R128 and R142: however ENV behaves, a RDREG that has ended made one window with one of three contents. -/
def Obligations.ReadTransactionOutcomes : Prop :=
  ∀ cfg s t (a8 : Addr8) ws ms, StateInv s → Ready s → s.csN = 1 → a8.toNat < 128 →
    s.reqs = (0x400000#24 ||| (a8.setWidth 24 <<< 8)) :: ws → (∀ m ∈ ms, m ≠ .accept) →
    runMoves cfg (.accept :: ms) s = some t → t.phase = .idle →
    ∃ x v,
      (t.trace = s.trace ++ [.csAssert, .xchg (cmd 1 (a8.setWidth 7)) x, .xchg 0x00 v, .csDeassert] ∧
        t.rspLog = s.rspLog ++ [⟨.ok, some v⟩]) ∨
      (cfg.timeoutMode = .hardened ∧ t.rspLog = s.rspLog ++ [⟨.busTimeout, none⟩] ∧
        (t.trace = s.trace ++ [.csAssert, .xchgAbort (cmd 1 (a8.setWidth 7)), .csDeassert] ∨
         t.trace = s.trace ++ [.csAssert, .xchg (cmd 1 (a8.setWidth 7)) x, .xchgAbort 0x00, .csDeassert]))

/-- R122, R128 and R142: however ENV behaves, a WRREG that has ended made one window with one of three contents. -/
def Obligations.WriteTransactionOutcomes : Prop :=
  ∀ cfg s t (a8 : Addr8) (d : Byte) ws ms, StateInv s → Ready s → s.csN = 1 → a8.toNat < 128 →
    s.reqs = (0x500000#24 ||| (a8.setWidth 24 <<< 8) ||| d.setWidth 24) :: ws → (∀ m ∈ ms, m ≠ .accept) →
    runMoves cfg (.accept :: ms) s = some t → t.phase = .idle →
    ∃ x y,
      (t.trace = s.trace ++ [.csAssert, .xchg (cmd 0 (a8.setWidth 7)) x, .xchg d y, .csDeassert] ∧
        t.rspLog = s.rspLog ++ [⟨.ok, none⟩]) ∨
      (cfg.timeoutMode = .hardened ∧ t.rspLog = s.rspLog ++ [⟨.busTimeout, none⟩] ∧
        (t.trace = s.trace ++ [.csAssert, .xchgAbort (cmd 0 (a8.setWidth 7)), .csDeassert] ∨
         t.trace = s.trace ++ [.csAssert, .xchg (cmd 0 (a8.setWidth 7)) x, .xchgAbort d, .csDeassert]))

/-- R99, R102 and R142: however ENV behaves, an XFER that has ended made at most one event of its byte and left the window open. -/
def Obligations.PrimitiveExchangeOutcomes : Prop :=
  ∀ cfg s t (d : Byte) ws ms, StateInv s → Ready s → s.csN = 0 →
    s.reqs = (0x300000#24 ||| d.setWidth 24) :: ws → (∀ m ∈ ms, m ≠ .accept) →
    runMoves cfg (.accept :: ms) s = some t → t.phase = .idle →
    t.csN = 0 ∧ ∃ x,
      (t.trace = s.trace ++ [.xchg d x] ∧ t.rspLog = s.rspLog ++ [⟨.ok, some x⟩]) ∨
      (cfg.timeoutMode = .hardened ∧ t.trace = s.trace ++ [.xchgAbort d] ∧
        t.rspLog = s.rspLog ++ [⟨.busTimeout, none⟩])

/-- R123: the four-request forms make RDREG's and WRREG's bus events under the same ENV bytes, and the second XFER returns RDREG's
data. -/
def Obligations.PrimitivesMatchTheCodec : Prop :=
  ∀ cfg s (a : Addr7) (rw : Bit) (d x v : Byte), StateInv s → Ready s → s.csN = 1 → (rw = 1 → d = 0x00) →
    ∃ t u,
      runMoves cfg [.accept, .accept, .txDrain, .rxDone x, .complete, .accept, .txDrain, .rxDone v, .complete, .accept]
        { s with reqs := [0x100000, 0x300000#24 ||| (cmd rw a).setWidth 24, 0x300000#24 ||| d.setWidth 24, 0x200000] } = some t ∧
      runMoves cfg [.accept, .txDrain, .rxDone x, .complete, .txDrain, .rxDone v, .complete]
        { s with reqs := [if rw = 1 then 0x400000#24 ||| (a.setWidth 24 <<< 8)
                          else 0x500000#24 ||| (a.setWidth 24 <<< 8) ||| d.setWidth 24] } = some u ∧
      t.trace = u.trace ∧
      t.rspLog = s.rspLog ++ [⟨.ok, none⟩, ⟨.ok, some x⟩, ⟨.ok, some v⟩, ⟨.ok, none⟩] ∧
      u.rspLog = s.rspLog ++ [⟨.ok, if rw = 1 then some v else none⟩]

/-- R127: the round trip against `EchoDev`, for the addresses 0 to 63. How `EchoDev`'s strategy takes its steps is the model's reading
of 95_test_vectors.md 2.1 (DEDUCED, log entry 16). -/
def Obligations.EchoDeviceRoundTrip : Prop :=
  ∀ cfg s (e : EchoDev) (a8 : Addr8) (v : Byte), StateInv s → Ready s → s.csN = 1 → a8.toNat < 64 →
    s.reqs = [0x500000#24 ||| (a8.setWidth 24 <<< 8) ||| v.setWidth 24, 0x400000#24 ||| (a8.setWidth 24 <<< 8)] →
    (echoRun cfg 14 (s, e)).1.phase = .idle ∧
    (echoRun cfg 14 (s, e)).1.rspLog = s.rspLog ++ [⟨.ok, none⟩, ⟨.ok, some v⟩]

/-- R126 and R127: against `EchoDev`, a write to an address 64 to 127 is seen as a read and stores nothing. How `EchoDev`'s strategy
takes its steps is the model's reading of 95_test_vectors.md 2.1 (DEDUCED, log entry 16). -/
def Obligations.EchoDeviceLosesHighWrites : Prop :=
  ∀ cfg s (e : EchoDev) (a8 : Addr8) (v : Byte), StateInv s → Ready s → s.csN = 1 → 64 ≤ a8.toNat → a8.toNat < 128 →
    s.reqs = [0x500000#24 ||| (a8.setWidth 24 <<< 8) ||| v.setWidth 24, 0x400000#24 ||| (a8.setWidth 24 <<< 8)] →
    (echoRun cfg 14 (s, e)).2.regs = e.regs ∧
    (echoRun cfg 14 (s, e)).1.rspLog = s.rspLog ++ [⟨.ok, none⟩, ⟨.ok, some (e.regs (a8.setWidth 6))⟩]

/-- R143: in hardened mode, under the fairness of ENV_TIMEOUT, every request ends. -/
def Obligations.HardenedRequestsEnd : Prop :=
  ∀ cfg run moves, cfg.timeoutMode = .hardened → StateInv (run 0) → IsRun cfg run moves → TimeoutFair cfg run moves →
    ∀ n, ∃ k, n ≤ k ∧ (run k).phase = .idle

/-- R170: under `DeviceResponsive` every request ends, in either mode. -/
def Obligations.ResponsiveDeviceRequestsEnd : Prop :=
  ∀ cfg run moves, StateInv (run 0) → IsRun cfg run moves → DeviceResponsive cfg run moves →
    ∀ n, ∃ k, n ≤ k ∧ (run k).phase = .idle

/-- R95, R103: in reference mode a wait may last for ever: the run of ENV_STALL steps is a run. -/
def Obligations.ReferenceModeCanHang : Prop :=
  ∀ cfg s, cfg.timeoutMode = .reference → s.fault = none → s.phase ≠ .idle → s.rxne = false →
    ∃ run moves, IsRun cfg run moves ∧ run 0 = s ∧ ∀ n, (run n).phase ≠ .idle ∧ moves n = some .stall

/-- R94, R102: a request in progress ends within six steps that are not ENV_STALL. -/
def Obligations.RequestEndsWithinSixSteps : Prop :=
  ∀ cfg s t ms, StateInv s → s.phase ≠ .idle → (∀ m ∈ ms, m ≠ .stall) → 6 ≤ ms.length →
    runMoves cfg ms s = some t →
    ∃ k u, k ≤ 6 ∧ runMoves cfg (ms.take k) s = some u ∧ u.phase = .idle

/-- R28: the five codes, and 0 on the port for no fault. -/
def Obligations.FaultCodesOfTheSpec : Prop :=
  faultCauseCode .illegalRequest = 1 ∧ faultCauseCode .selectWhileSelected = 2 ∧
  faultCauseCode .deselectWhileDeselected = 3 ∧ faultCauseCode .xferOutsideWindow = 4 ∧
  faultCauseCode .regOpInsideWindow = 5 ∧
  ∀ s, faultCode s = 0 ↔ s.fault = none

/-- R76, R177: the status codes, code 3 never; the 10 bits of a response; reading `DATA` that holds no value is a model fault. -/
def Obligations.ResponseFormat : Prop :=
  statusCode .ok = 0 ∧ statusCode .busTimeout = 1 ∧ statusCode .invalidAddress = 2 ∧ (∀ st, statusCode st ≠ 3) ∧
  (∀ st b, ∃ w, responseWord ⟨st, some b⟩ = .ok w ∧ w.extractLsb' 8 2 = statusCode st ∧ w.extractLsb' 0 8 = b ∧
    readResponseData ⟨st, some b⟩ = .ok b) ∧
  ∀ st, readResponseData ⟨st, none⟩ = .error (.noValue .responseData)

/-- R83: the assembled word of each form decodes to it; an operand out of range is refused. -/
def Obligations.AssemblerWordsAndRanges : Prop :=
  assemble .sel = some 0x100000 ∧ assemble .desel = some 0x200000 ∧
  ∀ a d w : Nat,
    (d < 256 → ∃ x, assemble (.xfer d) = some x ∧ decodeRequest x = .ok (.xfer (BitVec.ofNat 8 d))) ∧
    (a < 128 → ∃ x, assemble (.rdreg a) = some x ∧ decodeRequest x = .ok (.rdreg (BitVec.ofNat 8 a))) ∧
    (a < 128 → d < 256 → ∃ x, assemble (.wrreg a d) = some x ∧
      decodeRequest x = .ok (.wrreg (BitVec.ofNat 8 a) (BitVec.ofNat 8 d))) ∧
    (w < 2 ^ 24 → assemble (.word w) = some (BitVec.ofNat 24 w)) ∧
    (256 ≤ d → assemble (.xfer d) = none ∧ assemble (.wrreg a d) = none) ∧
    (128 ≤ a → assemble (.rdreg a) = none ∧ assemble (.wrreg a d) = none) ∧
    (2 ^ 24 ≤ w → assemble (.word w) = none)

/-- R171, R138: no agent has a step exactly when the block is faulted or HOST is done; the run has then ended well if there is no fault
and no window is open. -/
def Obligations.RunEndsWhenFaultedOrDone : Prop :=
  ∀ cfg s, StateInv s →
    ((∀ m, enabled cfg s m = false) ↔ s.fault ≠ none ∨ (s.phase = .idle ∧ s.reqs = [])) ∧
    (EndedWell s ↔ (∀ m, enabled cfg s m = false) ∧ s.fault = none ∧ s.csN = 1)

/-- A wire command byte placed by `withFetchWord` is put on the bus, inside a window, by the very next step (R115, R118); which
request carries it is the model's choice (log entry 11). -/
def Obligations.PlacedWireCommandIsSentNext : Prop :=
  ∀ s (b : Byte) i, StateInv s → Ready s → s.csN = 1 → decodeWire b = .ok i →
    ∃ t, step (s.withFetchWord 8 b.toNat) = .next t ∧
      t.txbuf = some b ∧ t.xout = some b ∧ t.csN = 0 ∧ t.trace = s.trace ++ [.csAssert] ∧ t.rspLog = s.rspLog
end

