-- ==== Sys2Proof/Laws/Decode.lean ====
section
/-! SUPPORT. The bits and the fields of an encoded word, and the word of given fields. -/

namespace Sys2Proof

/-- The bits of R73's word, field by field. -/
theorem hreqWord_getLsbD (op : BitVec 4) (a d : Byte) (j : Nat) :
    (hreqWord op a d).getLsbD j =
      if j < 8 then d.getLsbD j else if j - 8 < 8 then a.getLsbD (j - 8)
      else if j - 8 - 8 < 4 then false else op.getLsbD (j - 8 - 8 - 4) := by
  have h1 : (hreqWord op a d).getLsbD j = if j < 8 then d.getLsbD j else (op ++ 0#4 ++ a).getLsbD (j - 8) :=
    BitVec.getLsbD_append
  have h2 := BitVec.getLsbD_append (x := op ++ 0#4) (y := a) (i := j - 8)
  have h3 := BitVec.getLsbD_append (x := op) (y := 0#4) (i := j - 8 - 8)
  rw [h1, h2, h3]
  simp

@[simp] theorem opField_hreqWord (op : BitVec 4) (a d : Byte) : opField (hreqWord op a d) = op := by
  refine BitVec.eq_of_getLsbD_eq fun i hi => ?_
  simp only [opField, BitVec.getLsbD_extractLsb', hreqWord_getLsbD]
  rw [if_neg (by omega), if_neg (by omega), if_neg (by omega), show 20 + i - 8 - 8 - 4 = i by omega]
  simp [hi]

@[simp] theorem rsvField_hreqWord (op : BitVec 4) (a d : Byte) : rsvField (hreqWord op a d) = 0 := by
  refine BitVec.eq_of_getLsbD_eq fun i hi => ?_
  simp only [rsvField, BitVec.getLsbD_extractLsb', hreqWord_getLsbD]
  rw [if_neg (by omega), if_neg (by omega), if_pos (by omega)]
  simp

@[simp] theorem addrField_hreqWord (op : BitVec 4) (a d : Byte) : addrField (hreqWord op a d) = a := by
  refine BitVec.eq_of_getLsbD_eq fun i hi => ?_
  simp only [addrField, BitVec.getLsbD_extractLsb', hreqWord_getLsbD]
  rw [if_neg (by omega), if_pos (by omega), show 8 + i - 8 = i by omega]
  simp [hi]

@[simp] theorem dataField_hreqWord (op : BitVec 4) (a d : Byte) : dataField (hreqWord op a d) = d := by
  refine BitVec.eq_of_getLsbD_eq fun i hi => ?_
  simp only [dataField, BitVec.getLsbD_extractLsb', hreqWord_getLsbD]
  rw [if_pos (by omega), show 0 + i = i by omega]
  simp [hi]

/-- A word with `RSV = 0` is the word of its fields. -/
theorem hreqWord_of_fields {w : Word24} (h : rsvField w = 0) :
    hreqWord (opField w) (addrField w) (dataField w) = w := by
  refine BitVec.eq_of_getLsbD_eq fun j hj => ?_
  rw [hreqWord_getLsbD]
  split
  · simp [dataField, *]
  split
  · simp only [addrField, BitVec.getLsbD_extractLsb', show 8 + (j - 8) = j by omega]
    simp [*]
  split
  · have hb := congrArg (fun v : BitVec 4 => v.getLsbD (j - 16)) h
    simp only [rsvField, BitVec.getLsbD_extractLsb', show 16 + (j - 16) = j by omega,
      show j - 16 < 4 by omega, decide_true, Bool.true_and] at hb
    simpa using hb.symm
  · simp only [opField, BitVec.getLsbD_extractLsb', show 20 + (j - 8 - 8 - 4) = j by omega]
    simp [show j - 8 - 8 - 4 < 4 by omega]

/-- R83's way of writing the word of given fields. -/
theorem hreqWord_eq_or (op : BitVec 4) (a d : Byte) :
    hreqWord op a d = (op.setWidth 24 <<< 20) ||| (a.setWidth 24 <<< 8) ||| d.setWidth 24 := by
  refine BitVec.eq_of_getLsbD_eq fun j hj => ?_
  rw [hreqWord_getLsbD]
  simp only [BitVec.getLsbD_or, BitVec.getLsbD_shiftLeft, BitVec.getLsbD_setWidth]
  split
  · simp [show j < 20 by omega, *]
  split
  · simp [show ¬ j < 8 by omega, show j < 20 by omega, hj, show j - 8 < 24 by omega,
      BitVec.getLsbD_of_ge d j (by omega)]
  split
  · simp [show j < 20 by omega, BitVec.getLsbD_of_ge d j (by omega), BitVec.getLsbD_of_ge a (j - 8) (by omega)]
  · simp [show ¬ j < 20 by omega, BitVec.getLsbD_of_ge d j (by omega), BitVec.getLsbD_of_ge a (j - 8) (by omega), hj,
      show j - 20 < 24 by omega, show j - 8 - 8 - 4 = j - 20 by omega]

@[simp] theorem wireRw_wcmdByte (rw : Bit) (a : BitVec 6) : wireRw (wcmdByte rw a) = rw := by
  revert rw a; decide

@[simp] theorem wireAddr_wcmdByte (rw : Bit) (a : BitVec 6) : wireAddr (wcmdByte rw a) = a := by
  revert rw a; decide

@[simp] theorem wireBit0_wcmdByte (rw : Bit) (a : BitVec 6) : wireBit0 (wcmdByte rw a) = 0 := by
  revert rw a; decide

end Sys2Proof
end

