-- ==== Sys2Proof/Laws/State.lean ====
section
/-! SUPPORT. What each update of the state leaves in each field: one lemma per field per update, true by rfl. The
proof is written `(rfl)`, so that simp rewrites with the lemma (and carries Decidable instances along) instead of unfolding. -/

namespace Sys2Proof.Machine

@[simp] theorem emit_csN (e : BusEvent) (s : State) : (emit e s).csN = s.csN := (rfl)
@[simp] theorem emit_phase (e : BusEvent) (s : State) : (emit e s).phase = s.phase := (rfl)
@[simp] theorem emit_wdata (e : BusEvent) (s : State) : (emit e s).wdata = s.wdata := (rfl)
@[simp] theorem emit_xout (e : BusEvent) (s : State) : (emit e s).xout = s.xout := (rfl)
@[simp] theorem emit_txbuf (e : BusEvent) (s : State) : (emit e s).txbuf = s.txbuf := (rfl)
@[simp] theorem emit_txe (e : BusEvent) (s : State) : (emit e s).txe = s.txe := (rfl)
@[simp] theorem emit_shifter (e : BusEvent) (s : State) : (emit e s).shifter = s.shifter := (rfl)
@[simp] theorem emit_rxbuf (e : BusEvent) (s : State) : (emit e s).rxbuf = s.rxbuf := (rfl)
@[simp] theorem emit_rxne (e : BusEvent) (s : State) : (emit e s).rxne = s.rxne := (rfl)
@[simp] theorem emit_fault (e : BusEvent) (s : State) : (emit e s).fault = s.fault := (rfl)
@[simp] theorem emit_trace (e : BusEvent) (s : State) : (emit e s).trace = s.trace ++ [e] := (rfl)
@[simp] theorem emit_rspLog (e : BusEvent) (s : State) : (emit e s).rspLog = s.rspLog := (rfl)
@[simp] theorem emit_reqs (e : BusEvent) (s : State) : (emit e s).reqs = s.reqs := (rfl)
@[simp] theorem emit_hpc (e : BusEvent) (s : State) : (emit e s).hpc = s.hpc := (rfl)
@[simp] theorem emit_draws (e : BusEvent) (s : State) : (emit e s).draws = s.draws := (rfl)

@[simp] theorem respond_csN (st : Status) (d : Option Byte) (s : State) : (respond st d s).csN = s.csN := (rfl)
@[simp] theorem respond_phase (st : Status) (d : Option Byte) (s : State) : (respond st d s).phase = s.phase := (rfl)
@[simp] theorem respond_wdata (st : Status) (d : Option Byte) (s : State) : (respond st d s).wdata = s.wdata := (rfl)
@[simp] theorem respond_xout (st : Status) (d : Option Byte) (s : State) : (respond st d s).xout = s.xout := (rfl)
@[simp] theorem respond_txbuf (st : Status) (d : Option Byte) (s : State) : (respond st d s).txbuf = s.txbuf := (rfl)
@[simp] theorem respond_txe (st : Status) (d : Option Byte) (s : State) : (respond st d s).txe = s.txe := (rfl)
@[simp] theorem respond_shifter (st : Status) (d : Option Byte) (s : State) : (respond st d s).shifter = s.shifter := (rfl)
@[simp] theorem respond_rxbuf (st : Status) (d : Option Byte) (s : State) : (respond st d s).rxbuf = s.rxbuf := (rfl)
@[simp] theorem respond_rxne (st : Status) (d : Option Byte) (s : State) : (respond st d s).rxne = s.rxne := (rfl)
@[simp] theorem respond_fault (st : Status) (d : Option Byte) (s : State) : (respond st d s).fault = s.fault := (rfl)
@[simp] theorem respond_trace (st : Status) (d : Option Byte) (s : State) : (respond st d s).trace = s.trace := (rfl)
@[simp] theorem respond_rspLog (st : Status) (d : Option Byte) (s : State) : (respond st d s).rspLog = s.rspLog ++ [⟨st, d⟩] := (rfl)
@[simp] theorem respond_reqs (st : Status) (d : Option Byte) (s : State) : (respond st d s).reqs = s.reqs := (rfl)
@[simp] theorem respond_hpc (st : Status) (d : Option Byte) (s : State) : (respond st d s).hpc = s.hpc := (rfl)
@[simp] theorem respond_draws (st : Status) (d : Option Byte) (s : State) : (respond st d s).draws = s.draws := (rfl)

@[simp] theorem setPhase_csN (p : Phase) (s : State) : (setPhase p s).csN = s.csN := (rfl)
@[simp] theorem setPhase_phase (p : Phase) (s : State) : (setPhase p s).phase = p := (rfl)
@[simp] theorem setPhase_wdata (p : Phase) (s : State) : (setPhase p s).wdata = s.wdata := (rfl)
@[simp] theorem setPhase_xout (p : Phase) (s : State) : (setPhase p s).xout = s.xout := (rfl)
@[simp] theorem setPhase_txbuf (p : Phase) (s : State) : (setPhase p s).txbuf = s.txbuf := (rfl)
@[simp] theorem setPhase_txe (p : Phase) (s : State) : (setPhase p s).txe = s.txe := (rfl)
@[simp] theorem setPhase_shifter (p : Phase) (s : State) : (setPhase p s).shifter = s.shifter := (rfl)
@[simp] theorem setPhase_rxbuf (p : Phase) (s : State) : (setPhase p s).rxbuf = s.rxbuf := (rfl)
@[simp] theorem setPhase_rxne (p : Phase) (s : State) : (setPhase p s).rxne = s.rxne := (rfl)
@[simp] theorem setPhase_fault (p : Phase) (s : State) : (setPhase p s).fault = s.fault := (rfl)
@[simp] theorem setPhase_trace (p : Phase) (s : State) : (setPhase p s).trace = s.trace := (rfl)
@[simp] theorem setPhase_rspLog (p : Phase) (s : State) : (setPhase p s).rspLog = s.rspLog := (rfl)
@[simp] theorem setPhase_reqs (p : Phase) (s : State) : (setPhase p s).reqs = s.reqs := (rfl)
@[simp] theorem setPhase_hpc (p : Phase) (s : State) : (setPhase p s).hpc = s.hpc := (rfl)
@[simp] theorem setPhase_draws (p : Phase) (s : State) : (setPhase p s).draws = s.draws := (rfl)

@[simp] theorem openWindow_csN (s : State) : (openWindow s).csN = 0 := (rfl)
@[simp] theorem openWindow_phase (s : State) : (openWindow s).phase = s.phase := (rfl)
@[simp] theorem openWindow_wdata (s : State) : (openWindow s).wdata = s.wdata := (rfl)
@[simp] theorem openWindow_xout (s : State) : (openWindow s).xout = s.xout := (rfl)
@[simp] theorem openWindow_txbuf (s : State) : (openWindow s).txbuf = s.txbuf := (rfl)
@[simp] theorem openWindow_txe (s : State) : (openWindow s).txe = s.txe := (rfl)
@[simp] theorem openWindow_shifter (s : State) : (openWindow s).shifter = s.shifter := (rfl)
@[simp] theorem openWindow_rxbuf (s : State) : (openWindow s).rxbuf = s.rxbuf := (rfl)
@[simp] theorem openWindow_rxne (s : State) : (openWindow s).rxne = s.rxne := (rfl)
@[simp] theorem openWindow_fault (s : State) : (openWindow s).fault = s.fault := (rfl)
@[simp] theorem openWindow_trace (s : State) : (openWindow s).trace = s.trace ++ [.csAssert] := (rfl)
@[simp] theorem openWindow_rspLog (s : State) : (openWindow s).rspLog = s.rspLog := (rfl)
@[simp] theorem openWindow_reqs (s : State) : (openWindow s).reqs = s.reqs := (rfl)
@[simp] theorem openWindow_hpc (s : State) : (openWindow s).hpc = s.hpc := (rfl)
@[simp] theorem openWindow_draws (s : State) : (openWindow s).draws = s.draws := (rfl)

@[simp] theorem closeWindow_csN (s : State) : (closeWindow s).csN = 1 := (rfl)
@[simp] theorem closeWindow_phase (s : State) : (closeWindow s).phase = s.phase := (rfl)
@[simp] theorem closeWindow_wdata (s : State) : (closeWindow s).wdata = s.wdata := (rfl)
@[simp] theorem closeWindow_xout (s : State) : (closeWindow s).xout = s.xout := (rfl)
@[simp] theorem closeWindow_txbuf (s : State) : (closeWindow s).txbuf = s.txbuf := (rfl)
@[simp] theorem closeWindow_txe (s : State) : (closeWindow s).txe = s.txe := (rfl)
@[simp] theorem closeWindow_shifter (s : State) : (closeWindow s).shifter = s.shifter := (rfl)
@[simp] theorem closeWindow_rxbuf (s : State) : (closeWindow s).rxbuf = s.rxbuf := (rfl)
@[simp] theorem closeWindow_rxne (s : State) : (closeWindow s).rxne = s.rxne := (rfl)
@[simp] theorem closeWindow_fault (s : State) : (closeWindow s).fault = s.fault := (rfl)
@[simp] theorem closeWindow_trace (s : State) : (closeWindow s).trace = s.trace ++ [.csDeassert] := (rfl)
@[simp] theorem closeWindow_rspLog (s : State) : (closeWindow s).rspLog = s.rspLog := (rfl)
@[simp] theorem closeWindow_reqs (s : State) : (closeWindow s).reqs = s.reqs := (rfl)
@[simp] theorem closeWindow_hpc (s : State) : (closeWindow s).hpc = s.hpc := (rfl)
@[simp] theorem closeWindow_draws (s : State) : (closeWindow s).draws = s.draws := (rfl)

@[simp] theorem latchValue_csN (d : Byte) (s : State) : (latchValue d s).csN = s.csN := (rfl)
@[simp] theorem latchValue_phase (d : Byte) (s : State) : (latchValue d s).phase = s.phase := (rfl)
@[simp] theorem latchValue_wdata (d : Byte) (s : State) : (latchValue d s).wdata = some d := (rfl)
@[simp] theorem latchValue_xout (d : Byte) (s : State) : (latchValue d s).xout = s.xout := (rfl)
@[simp] theorem latchValue_txbuf (d : Byte) (s : State) : (latchValue d s).txbuf = s.txbuf := (rfl)
@[simp] theorem latchValue_txe (d : Byte) (s : State) : (latchValue d s).txe = s.txe := (rfl)
@[simp] theorem latchValue_shifter (d : Byte) (s : State) : (latchValue d s).shifter = s.shifter := (rfl)
@[simp] theorem latchValue_rxbuf (d : Byte) (s : State) : (latchValue d s).rxbuf = s.rxbuf := (rfl)
@[simp] theorem latchValue_rxne (d : Byte) (s : State) : (latchValue d s).rxne = s.rxne := (rfl)
@[simp] theorem latchValue_fault (d : Byte) (s : State) : (latchValue d s).fault = s.fault := (rfl)
@[simp] theorem latchValue_trace (d : Byte) (s : State) : (latchValue d s).trace = s.trace := (rfl)
@[simp] theorem latchValue_rspLog (d : Byte) (s : State) : (latchValue d s).rspLog = s.rspLog := (rfl)
@[simp] theorem latchValue_reqs (d : Byte) (s : State) : (latchValue d s).reqs = s.reqs := (rfl)
@[simp] theorem latchValue_hpc (d : Byte) (s : State) : (latchValue d s).hpc = s.hpc := (rfl)
@[simp] theorem latchValue_draws (d : Byte) (s : State) : (latchValue d s).draws = s.draws := (rfl)

@[simp] theorem raiseFault_csN (c : FaultCause) (w : Word24) (s : State) : (raiseFault c w s).csN = s.csN := (rfl)
@[simp] theorem raiseFault_phase (c : FaultCause) (w : Word24) (s : State) : (raiseFault c w s).phase = s.phase := (rfl)
@[simp] theorem raiseFault_wdata (c : FaultCause) (w : Word24) (s : State) : (raiseFault c w s).wdata = s.wdata := (rfl)
@[simp] theorem raiseFault_xout (c : FaultCause) (w : Word24) (s : State) : (raiseFault c w s).xout = s.xout := (rfl)
@[simp] theorem raiseFault_txbuf (c : FaultCause) (w : Word24) (s : State) : (raiseFault c w s).txbuf = s.txbuf := (rfl)
@[simp] theorem raiseFault_txe (c : FaultCause) (w : Word24) (s : State) : (raiseFault c w s).txe = s.txe := (rfl)
@[simp] theorem raiseFault_shifter (c : FaultCause) (w : Word24) (s : State) : (raiseFault c w s).shifter = s.shifter := (rfl)
@[simp] theorem raiseFault_rxbuf (c : FaultCause) (w : Word24) (s : State) : (raiseFault c w s).rxbuf = s.rxbuf := (rfl)
@[simp] theorem raiseFault_rxne (c : FaultCause) (w : Word24) (s : State) : (raiseFault c w s).rxne = s.rxne := (rfl)
@[simp] theorem raiseFault_fault (c : FaultCause) (w : Word24) (s : State) : (raiseFault c w s).fault = some (c, w) := (rfl)
@[simp] theorem raiseFault_trace (c : FaultCause) (w : Word24) (s : State) : (raiseFault c w s).trace = s.trace := (rfl)
@[simp] theorem raiseFault_rspLog (c : FaultCause) (w : Word24) (s : State) : (raiseFault c w s).rspLog = s.rspLog := (rfl)
@[simp] theorem raiseFault_reqs (c : FaultCause) (w : Word24) (s : State) : (raiseFault c w s).reqs = s.reqs := (rfl)
@[simp] theorem raiseFault_hpc (c : FaultCause) (w : Word24) (s : State) : (raiseFault c w s).hpc = s.hpc := (rfl)
@[simp] theorem raiseFault_draws (c : FaultCause) (w : Word24) (s : State) : (raiseFault c w s).draws = s.draws := (rfl)

@[simp] theorem loadByte_csN (out : Byte) (s : State) : (loadByte out s).csN = s.csN := (rfl)
@[simp] theorem loadByte_phase (out : Byte) (s : State) : (loadByte out s).phase = s.phase := (rfl)
@[simp] theorem loadByte_wdata (out : Byte) (s : State) : (loadByte out s).wdata = s.wdata := (rfl)
@[simp] theorem loadByte_xout (out : Byte) (s : State) : (loadByte out s).xout = some out := (rfl)
@[simp] theorem loadByte_txbuf (out : Byte) (s : State) : (loadByte out s).txbuf = some out := (rfl)
@[simp] theorem loadByte_txe (out : Byte) (s : State) : (loadByte out s).txe = false := (rfl)
@[simp] theorem loadByte_shifter (out : Byte) (s : State) : (loadByte out s).shifter = s.shifter := (rfl)
@[simp] theorem loadByte_rxbuf (out : Byte) (s : State) : (loadByte out s).rxbuf = s.rxbuf := (rfl)
@[simp] theorem loadByte_rxne (out : Byte) (s : State) : (loadByte out s).rxne = s.rxne := (rfl)
@[simp] theorem loadByte_fault (out : Byte) (s : State) : (loadByte out s).fault = s.fault := (rfl)
@[simp] theorem loadByte_trace (out : Byte) (s : State) : (loadByte out s).trace = s.trace := (rfl)
@[simp] theorem loadByte_rspLog (out : Byte) (s : State) : (loadByte out s).rspLog = s.rspLog := (rfl)
@[simp] theorem loadByte_reqs (out : Byte) (s : State) : (loadByte out s).reqs = s.reqs := (rfl)
@[simp] theorem loadByte_hpc (out : Byte) (s : State) : (loadByte out s).hpc = s.hpc := (rfl)
@[simp] theorem loadByte_draws (out : Byte) (s : State) : (loadByte out s).draws = s.draws := (rfl)

@[simp] theorem takeReply_csN (s : State) : (takeReply s).csN = s.csN := (rfl)
@[simp] theorem takeReply_phase (s : State) : (takeReply s).phase = s.phase := (rfl)
@[simp] theorem takeReply_wdata (s : State) : (takeReply s).wdata = s.wdata := (rfl)
@[simp] theorem takeReply_xout (s : State) : (takeReply s).xout = none := (rfl)
@[simp] theorem takeReply_txbuf (s : State) : (takeReply s).txbuf = s.txbuf := (rfl)
@[simp] theorem takeReply_txe (s : State) : (takeReply s).txe = s.txe := (rfl)
@[simp] theorem takeReply_shifter (s : State) : (takeReply s).shifter = s.shifter := (rfl)
@[simp] theorem takeReply_rxbuf (s : State) : (takeReply s).rxbuf = s.rxbuf := (rfl)
@[simp] theorem takeReply_rxne (s : State) : (takeReply s).rxne = false := (rfl)
@[simp] theorem takeReply_fault (s : State) : (takeReply s).fault = s.fault := (rfl)
@[simp] theorem takeReply_trace (s : State) : (takeReply s).trace = s.trace := (rfl)
@[simp] theorem takeReply_rspLog (s : State) : (takeReply s).rspLog = s.rspLog := (rfl)
@[simp] theorem takeReply_reqs (s : State) : (takeReply s).reqs = s.reqs := (rfl)
@[simp] theorem takeReply_hpc (s : State) : (takeReply s).hpc = s.hpc := (rfl)
@[simp] theorem takeReply_draws (s : State) : (takeReply s).draws = s.draws := (rfl)

@[simp] theorem drainTx_csN (b : Byte) (s : State) : (drainTx b s).csN = s.csN := (rfl)
@[simp] theorem drainTx_phase (b : Byte) (s : State) : (drainTx b s).phase = s.phase := (rfl)
@[simp] theorem drainTx_wdata (b : Byte) (s : State) : (drainTx b s).wdata = s.wdata := (rfl)
@[simp] theorem drainTx_xout (b : Byte) (s : State) : (drainTx b s).xout = s.xout := (rfl)
@[simp] theorem drainTx_txbuf (b : Byte) (s : State) : (drainTx b s).txbuf = none := (rfl)
@[simp] theorem drainTx_txe (b : Byte) (s : State) : (drainTx b s).txe = true := (rfl)
@[simp] theorem drainTx_shifter (b : Byte) (s : State) : (drainTx b s).shifter = some b := (rfl)
@[simp] theorem drainTx_rxbuf (b : Byte) (s : State) : (drainTx b s).rxbuf = s.rxbuf := (rfl)
@[simp] theorem drainTx_rxne (b : Byte) (s : State) : (drainTx b s).rxne = s.rxne := (rfl)
@[simp] theorem drainTx_fault (b : Byte) (s : State) : (drainTx b s).fault = s.fault := (rfl)
@[simp] theorem drainTx_trace (b : Byte) (s : State) : (drainTx b s).trace = s.trace := (rfl)
@[simp] theorem drainTx_rspLog (b : Byte) (s : State) : (drainTx b s).rspLog = s.rspLog := (rfl)
@[simp] theorem drainTx_reqs (b : Byte) (s : State) : (drainTx b s).reqs = s.reqs := (rfl)
@[simp] theorem drainTx_hpc (b : Byte) (s : State) : (drainTx b s).hpc = s.hpc := (rfl)
@[simp] theorem drainTx_draws (b : Byte) (s : State) : (drainTx b s).draws = s.draws := (rfl)

@[simp] theorem finishRx_csN (o inb : Byte) (s : State) : (finishRx o inb s).csN = s.csN := (rfl)
@[simp] theorem finishRx_phase (o inb : Byte) (s : State) : (finishRx o inb s).phase = s.phase := (rfl)
@[simp] theorem finishRx_wdata (o inb : Byte) (s : State) : (finishRx o inb s).wdata = s.wdata := (rfl)
@[simp] theorem finishRx_xout (o inb : Byte) (s : State) : (finishRx o inb s).xout = s.xout := (rfl)
@[simp] theorem finishRx_txbuf (o inb : Byte) (s : State) : (finishRx o inb s).txbuf = s.txbuf := (rfl)
@[simp] theorem finishRx_txe (o inb : Byte) (s : State) : (finishRx o inb s).txe = s.txe := (rfl)
@[simp] theorem finishRx_shifter (o inb : Byte) (s : State) : (finishRx o inb s).shifter = none := (rfl)
@[simp] theorem finishRx_rxbuf (o inb : Byte) (s : State) : (finishRx o inb s).rxbuf = some inb := (rfl)
@[simp] theorem finishRx_rxne (o inb : Byte) (s : State) : (finishRx o inb s).rxne = true := (rfl)
@[simp] theorem finishRx_fault (o inb : Byte) (s : State) : (finishRx o inb s).fault = s.fault := (rfl)
@[simp] theorem finishRx_trace (o inb : Byte) (s : State) : (finishRx o inb s).trace = s.trace ++ [.xchg o inb] := (rfl)
@[simp] theorem finishRx_rspLog (o inb : Byte) (s : State) : (finishRx o inb s).rspLog = s.rspLog := (rfl)
@[simp] theorem finishRx_reqs (o inb : Byte) (s : State) : (finishRx o inb s).reqs = s.reqs := (rfl)
@[simp] theorem finishRx_hpc (o inb : Byte) (s : State) : (finishRx o inb s).hpc = s.hpc := (rfl)
@[simp] theorem finishRx_draws (o inb : Byte) (s : State) : (finishRx o inb s).draws = s.draws := (rfl)

@[simp] theorem abandonExchange_csN (o : Byte) (s : State) : (abandonExchange o s).csN = s.csN := (rfl)
@[simp] theorem abandonExchange_phase (o : Byte) (s : State) : (abandonExchange o s).phase = s.phase := (rfl)
@[simp] theorem abandonExchange_wdata (o : Byte) (s : State) : (abandonExchange o s).wdata = none := (rfl)
@[simp] theorem abandonExchange_xout (o : Byte) (s : State) : (abandonExchange o s).xout = none := (rfl)
@[simp] theorem abandonExchange_txbuf (o : Byte) (s : State) : (abandonExchange o s).txbuf = none := (rfl)
@[simp] theorem abandonExchange_txe (o : Byte) (s : State) : (abandonExchange o s).txe = true := (rfl)
@[simp] theorem abandonExchange_shifter (o : Byte) (s : State) : (abandonExchange o s).shifter = none := (rfl)
@[simp] theorem abandonExchange_rxbuf (o : Byte) (s : State) : (abandonExchange o s).rxbuf = s.rxbuf := (rfl)
@[simp] theorem abandonExchange_rxne (o : Byte) (s : State) : (abandonExchange o s).rxne = false := (rfl)
@[simp] theorem abandonExchange_fault (o : Byte) (s : State) : (abandonExchange o s).fault = s.fault := (rfl)
@[simp] theorem abandonExchange_trace (o : Byte) (s : State) : (abandonExchange o s).trace = s.trace ++ [.xchgAbort o] := (rfl)
@[simp] theorem abandonExchange_rspLog (o : Byte) (s : State) : (abandonExchange o s).rspLog = s.rspLog := (rfl)
@[simp] theorem abandonExchange_reqs (o : Byte) (s : State) : (abandonExchange o s).reqs = s.reqs := (rfl)
@[simp] theorem abandonExchange_hpc (o : Byte) (s : State) : (abandonExchange o s).hpc = s.hpc := (rfl)
@[simp] theorem abandonExchange_draws (o : Byte) (s : State) : (abandonExchange o s).draws = s.draws := (rfl)

@[simp] theorem hostAdvance_csN (s : State) : (hostAdvance s).csN = s.csN := (rfl)
@[simp] theorem hostAdvance_phase (s : State) : (hostAdvance s).phase = s.phase := (rfl)
@[simp] theorem hostAdvance_wdata (s : State) : (hostAdvance s).wdata = s.wdata := (rfl)
@[simp] theorem hostAdvance_xout (s : State) : (hostAdvance s).xout = s.xout := (rfl)
@[simp] theorem hostAdvance_txbuf (s : State) : (hostAdvance s).txbuf = s.txbuf := (rfl)
@[simp] theorem hostAdvance_txe (s : State) : (hostAdvance s).txe = s.txe := (rfl)
@[simp] theorem hostAdvance_shifter (s : State) : (hostAdvance s).shifter = s.shifter := (rfl)
@[simp] theorem hostAdvance_rxbuf (s : State) : (hostAdvance s).rxbuf = s.rxbuf := (rfl)
@[simp] theorem hostAdvance_rxne (s : State) : (hostAdvance s).rxne = s.rxne := (rfl)
@[simp] theorem hostAdvance_fault (s : State) : (hostAdvance s).fault = s.fault := (rfl)
@[simp] theorem hostAdvance_trace (s : State) : (hostAdvance s).trace = s.trace := (rfl)
@[simp] theorem hostAdvance_rspLog (s : State) : (hostAdvance s).rspLog = s.rspLog := (rfl)
@[simp] theorem hostAdvance_reqs (s : State) : (hostAdvance s).reqs = s.reqs.tail := (rfl)
@[simp] theorem hostAdvance_hpc (s : State) : (hostAdvance s).hpc = s.hpc + 1 := (rfl)
@[simp] theorem hostAdvance_draws (s : State) : (hostAdvance s).draws = s.draws := (rfl)

@[simp] theorem nextDraw_csN (s : State) : (nextDraw s).csN = s.csN := (rfl)
@[simp] theorem nextDraw_phase (s : State) : (nextDraw s).phase = s.phase := (rfl)
@[simp] theorem nextDraw_wdata (s : State) : (nextDraw s).wdata = s.wdata := (rfl)
@[simp] theorem nextDraw_xout (s : State) : (nextDraw s).xout = s.xout := (rfl)
@[simp] theorem nextDraw_txbuf (s : State) : (nextDraw s).txbuf = s.txbuf := (rfl)
@[simp] theorem nextDraw_txe (s : State) : (nextDraw s).txe = s.txe := (rfl)
@[simp] theorem nextDraw_shifter (s : State) : (nextDraw s).shifter = s.shifter := (rfl)
@[simp] theorem nextDraw_rxbuf (s : State) : (nextDraw s).rxbuf = s.rxbuf := (rfl)
@[simp] theorem nextDraw_rxne (s : State) : (nextDraw s).rxne = s.rxne := (rfl)
@[simp] theorem nextDraw_fault (s : State) : (nextDraw s).fault = s.fault := (rfl)
@[simp] theorem nextDraw_trace (s : State) : (nextDraw s).trace = s.trace := (rfl)
@[simp] theorem nextDraw_rspLog (s : State) : (nextDraw s).rspLog = s.rspLog := (rfl)
@[simp] theorem nextDraw_reqs (s : State) : (nextDraw s).reqs = s.reqs := (rfl)
@[simp] theorem nextDraw_hpc (s : State) : (nextDraw s).hpc = s.hpc := (rfl)
@[simp] theorem nextDraw_draws (s : State) : (nextDraw s).draws = s.draws + 1 := (rfl)

@[simp] theorem placeRequest_csN (w : Word24) (s : State) : (placeRequest w s).csN = s.csN := (rfl)
@[simp] theorem placeRequest_phase (w : Word24) (s : State) : (placeRequest w s).phase = s.phase := (rfl)
@[simp] theorem placeRequest_wdata (w : Word24) (s : State) : (placeRequest w s).wdata = s.wdata := (rfl)
@[simp] theorem placeRequest_xout (w : Word24) (s : State) : (placeRequest w s).xout = s.xout := (rfl)
@[simp] theorem placeRequest_txbuf (w : Word24) (s : State) : (placeRequest w s).txbuf = s.txbuf := (rfl)
@[simp] theorem placeRequest_txe (w : Word24) (s : State) : (placeRequest w s).txe = s.txe := (rfl)
@[simp] theorem placeRequest_shifter (w : Word24) (s : State) : (placeRequest w s).shifter = s.shifter := (rfl)
@[simp] theorem placeRequest_rxbuf (w : Word24) (s : State) : (placeRequest w s).rxbuf = s.rxbuf := (rfl)
@[simp] theorem placeRequest_rxne (w : Word24) (s : State) : (placeRequest w s).rxne = s.rxne := (rfl)
@[simp] theorem placeRequest_fault (w : Word24) (s : State) : (placeRequest w s).fault = s.fault := (rfl)
@[simp] theorem placeRequest_trace (w : Word24) (s : State) : (placeRequest w s).trace = s.trace := (rfl)
@[simp] theorem placeRequest_rspLog (w : Word24) (s : State) : (placeRequest w s).rspLog = s.rspLog := (rfl)
@[simp] theorem placeRequest_reqs (w : Word24) (s : State) : (placeRequest w s).reqs = w :: s.reqs.tail := (rfl)
@[simp] theorem placeRequest_hpc (w : Word24) (s : State) : (placeRequest w s).hpc = s.hpc := (rfl)
@[simp] theorem placeRequest_draws (w : Word24) (s : State) : (placeRequest w s).draws = s.draws := (rfl)

end Sys2Proof.Machine
end

