-- ==== Sys2Proof/Laws/Ops.lean ====
section
/-! SUPPORT. One lemma per shared operation that says what it can do, for proofs to cite instead of unfolding it. -/

namespace Sys2Proof.Machine

/-- A ready block does what the request asks. -/
theorem whenReady_ready {s : State} (act : Host.Outcome State Fault Refusal) (hf : s.fault = none) (hp : s.phase = .idle) :
    whenReady s act = act := by
  simp [whenReady, hf, hp]

/-- A busy block holds. -/
theorem whenReady_busy {s : State} (act : Host.Outcome State Fault Refusal) (hf : s.fault = none) (hp : s.phase ≠ .idle) :
    whenReady s act = .next s := by
  simp [whenReady, hf, hp]

/-- A faulted block has stopped. -/
theorem whenReady_faulted {s : State} (act : Host.Outcome State Fault Refusal) {c : FaultCause} {w : Word24}
    (hf : s.fault = some (c, w)) : whenReady s act = .fault (.blockFaulted c) := by
  simp [whenReady, hf]

/-- The only ways in which a guarded request answers a next state. -/
theorem whenReady_next_cases {s t : State} {act : Host.Outcome State Fault Refusal} (h : whenReady s act = .next t) :
    s.fault = none ∧ ((s.phase = .idle ∧ act = .next t) ∨ (s.phase ≠ .idle ∧ t = s)) := by
  unfold whenReady at h
  split at h
  · cases h
  · rename_i hf
    refine ⟨hf, ?_⟩
    split at h
    · rename_i hp
      exact .inl ⟨hp, h⟩
    · rename_i hp
      injection h with h
      exact .inr ⟨hp, h.symm⟩

/-- `Start` with the transmit buffer free. -/
theorem startThen_free {held s : State} (out : Byte) (after : State → State) (h : s.txe = true) :
    startThen held out after s = .next (after (loadByte out s)) := by
  simp [startThen, h]

/-- `Start` with the transmit buffer full. -/
theorem startThen_held {held s : State} (out : Byte) (after : State → State) (h : s.txe = false) :
    startThen held out after s = .next held := by
  simp [startThen, h]

/-- `Start` always answers a next state, one of two. -/
theorem startThen_next_cases {held s t : State} {out : Byte} {after : State → State}
    (h : startThen held out after s = .next t) :
    (s.txe = true ∧ t = after (loadByte out s)) ∨ (s.txe = false ∧ t = held) := by
  cases htx : s.txe with
  | true => rw [startThen_free out after htx] at h; injection h with h; exact .inl ⟨rfl, h.symm⟩
  | false => rw [startThen_held out after htx] at h; injection h with h; exact .inr ⟨rfl, h.symm⟩

/-- A read of a place that holds a value. -/
theorem need_some {p : Place} {v : Option Byte} {b : Byte} (use : Byte → Host.Outcome State Fault Refusal) (h : v = some b) :
    need p v use = use b := by
  subst h; rfl

/-- A read answers a next state only where the place holds a value. -/
theorem need_next_cases {p : Place} {v : Option Byte} {use : Byte → Host.Outcome State Fault Refusal} {t : State}
    (h : need p v use = .next t) : ∃ b, v = some b ∧ use b = .next t := by
  cases v with
  | none => cases h
  | some b => exact ⟨b, rfl, h⟩

/-- Only XFER's window is left open by a timeout. -/
theorem closeOwnWindow_cases (p : Phase) (s : State) :
    ((p = .idle ∨ p = .xfer) ∧ closeOwnWindow p s = s) ∨ ((p ≠ .idle ∧ p ≠ .xfer) ∧ closeOwnWindow p s = closeWindow s) := by
  cases p <;> simp [closeOwnWindow]

/-- The scheduler takes a step of the list. -/
theorem choose_mem {n : Nat} {ms : List Move} {m : Move} (h : choose n ms = some m) : m ∈ ms := by
  match ms, h with
  | [m'], h => simp [choose] at h; simp [h]
  | a :: b :: cs, h => exact List.mem_of_getElem? h

/-- The scheduler takes no step only if there is none. -/
theorem choose_eq_none {n : Nat} {ms : List Move} : choose n ms = none ↔ ms = [] := by
  match ms with
  | [] => simp [choose]
  | [m] => simp [choose]
  | a :: b :: cs =>
    have hlt : n % (cs.length + 2) < cs.length + 2 := Nat.mod_lt _ (by omega)
    simp only [choose, List.getElem?_eq_none_iff, List.length_cons, reduceCtorEq, iff_false]
    omega

/-- Each step of the list is the one that some value picks. -/
theorem choose_of_mem {ms : List Move} {m : Move} (h : m ∈ ms) : ∃ n, choose n ms = some m := by
  match ms, h with
  | [a], h => exact ⟨0, by simpa [choose] using (List.mem_singleton.mp h).symm⟩
  | a :: b :: cs, h =>
    obtain ⟨n, hn, he⟩ := List.getElem_of_mem h
    refine ⟨n, ?_⟩
    have hlt : n < cs.length + 2 := hn
    simp only [choose, Nat.mod_eq_of_lt hlt]
    rw [List.getElem?_eq_getElem hn, he]

/-- Which steps the list of enabled ones holds. -/
theorem mem_enabledMoves {cfg : Cfg} {inb : Byte} {s : State} {m : Move} :
    m ∈ enabledMoves cfg inb s ↔ enabled cfg s m = true ∧ ∀ b, m = .rxDone b → b = inb := by
  cases m <;> simp [enabledMoves, and_comm]

/-- The byte that ENV would draw does not decide whether ENV_RX_DONE is enabled. -/
theorem enabled_rxDone (cfg : Cfg) (s : State) (b c : Byte) : enabled cfg s (.rxDone b) = enabled cfg s (.rxDone c) := rfl

end Sys2Proof.Machine
end

