-- ==== Sys2Proof/Laws/Step.lean ====
section
/-! SUPPORT. What one step can be, said once: proofs about `step` start here. -/

namespace Sys2Proof.Machine

/-- The counter's advance changes no step's await. -/
@[simp] theorem enabled_nextDraw (cfg : Cfg) (s : State) (m : Move) : enabled cfg (nextDraw s) m = enabled cfg s m := by
  cases m <;> rfl

/-- One step is one enabled step of an agent, or no agent has one. -/
theorem nextStep_cases (cfg : Cfg) (pick : Nat) (inb : Byte) (s : State) :
    (∃ m, enabled cfg s m = true ∧ nextStep cfg pick inb s = perform m (nextDraw s)) ∨
    ((∀ m, enabled cfg s m = false) ∧ nextStep cfg pick inb s = noStep s) := by
  unfold nextStep
  cases h : choose pick (enabledMoves cfg inb s) with
  | some m => exact .inl ⟨m, (mem_enabledMoves.mp (choose_mem h)).1, rfl⟩
  | none =>
    refine .inr ⟨fun m => ?_, rfl⟩
    have hnil := choose_eq_none.mp h
    by_contra hm
    have hen : enabled cfg s m = true := by simpa using hm
    have hmem : ∃ m', m' ∈ enabledMoves cfg inb s := by
      cases m with
      | rxDone b => exact ⟨.rxDone inb, mem_enabledMoves.mpr ⟨(enabled_rxDone cfg s inb b).trans hen, by simp⟩⟩
      | accept => exact ⟨_, mem_enabledMoves.mpr ⟨hen, by simp⟩⟩
      | complete => exact ⟨_, mem_enabledMoves.mpr ⟨hen, by simp⟩⟩
      | txDrain => exact ⟨_, mem_enabledMoves.mpr ⟨hen, by simp⟩⟩
      | stall => exact ⟨_, mem_enabledMoves.mpr ⟨hen, by simp⟩⟩
      | timeout => exact ⟨_, mem_enabledMoves.mpr ⟨hen, by simp⟩⟩
    simp [hnil] at hmem

/-- If exactly one step is enabled, it is taken. -/
theorem nextStep_only {cfg : Cfg} {inb : Byte} {s : State} {m : Move} (pick : Nat) (h : enabledMoves cfg inb s = [m]) :
    nextStep cfg pick inb s = perform m (nextDraw s) := by
  simp [nextStep, h, choose]

/-- With no step enabled, the machine stops if it is faulted and waits otherwise. -/
theorem noStep_eq (s : State) :
    noStep s = (match s.fault with | some (c, _) => .fault (.blockFaulted c) | none => .next s) := rfl

end Sys2Proof.Machine
end

