-- ==== Sys2Proof/Laws/Moves.lean ====
section
/-! SUPPORT. Everything an enabled step can do, said once: one rule per outcome. Proofs about steps use `move_of_enabled` and
`cases`, and do not unfold `enabled` or `perform`. -/

namespace Sys2Proof.Machine

/-- A chip-select level that is not 0 is 1. -/
theorem csN_eq_one {b : Bit} (h : b ≠ 0) : b = 1 := by
  revert b; decide

/-- A chip-select level that is not 1 is 0. -/
theorem csN_eq_zero {b : Bit} (h : b ≠ 1) : b = 0 := by
  revert b; decide

/-- A legal request word is the encoding of what it decodes to. -/
theorem decodeRequest_cases {w : Word24} {i : Instr} (h : decodeRequest w = .ok i) :
    (i = .sel ∧ w = hreqWord 0x1 0 0) ∨ (i = .desel ∧ w = hreqWord 0x2 0 0) ∨
    (∃ d, i = .xfer d ∧ w = hreqWord 0x3 0 d) ∨ (∃ a, i = .rdreg a ∧ w = hreqWord 0x4 a 0) ∨
    (∃ a d, i = .wrreg a d ∧ w = hreqWord 0x5 a d) := by
  unfold decodeRequest whenZero at h
  by_cases hr : rsvField w = 0
  · have hw := hreqWord_of_fields hr
    rw [if_neg (by simpa using hr)] at h
    split_ifs at h <;> cases h <;> rw [← hw] <;> simp_all
  · rw [if_pos hr] at h; cases h

/-- What an enabled step can do: the rule it follows, its conditions, and the state after it. -/
inductive MoveRule (s : State) : Move → State → Prop
  /-- R90, R137: ILLEGAL_REQUEST. -/
  | illegal (w : Word24) (ws : List Word24) (r : Reject) (hq : s.reqs = w :: ws) (hf : s.fault = none) (hp : s.phase = .idle)
      (hd : decodeRequest w = .error r) : MoveRule s .accept (raiseFault .illegalRequest w (hostAdvance s))
  /-- R96, R97, R98, R115, R118: a request that breaks the window contract. -/
  | breach (c : FaultCause) (w : Word24) (ws : List Word24) (i : Instr) (hq : s.reqs = w :: ws) (hf : s.fault = none)
      (hp : s.phase = .idle) (hd : decodeRequest w = .ok i) : MoveRule s .accept (raiseFault c w (hostAdvance s))
  /-- R96. -/
  | sel (w : Word24) (ws : List Word24) (hq : s.reqs = w :: ws) (hf : s.fault = none) (hp : s.phase = .idle)
      (hd : decodeRequest w = .ok .sel) (hc : s.csN = 1) :
      MoveRule s .accept (respond .ok none (openWindow (hostAdvance s)))
  /-- R97. -/
  | desel (w : Word24) (ws : List Word24) (hq : s.reqs = w :: ws) (hf : s.fault = none) (hp : s.phase = .idle)
      (hd : decodeRequest w = .ok .desel) (hc : s.csN = 0) :
      MoveRule s .accept (respond .ok none (closeWindow (hostAdvance s)))
  /-- R98. -/
  | xfer (w : Word24) (ws : List Word24) (d : Byte) (hq : s.reqs = w :: ws) (hf : s.fault = none) (hp : s.phase = .idle)
      (hd : decodeRequest w = .ok (.xfer d)) (hc : s.csN = 0) (ht : s.txe = true) :
      MoveRule s .accept (setPhase .xfer (loadByte d (hostAdvance s)))
  /-- R124. -/
  | invalidAddress (w : Word24) (ws : List Word24) (i : Instr) (hq : s.reqs = w :: ws) (hf : s.fault = none)
      (hp : s.phase = .idle) (hd : decodeRequest w = .ok i) (hc : s.csN = 1)
      (hi : (∃ a, i = .rdreg a) ∨ ∃ a d, i = .wrreg a d) :
      MoveRule s .accept (respond .invalidAddress none (hostAdvance s))
  /-- R115. -/
  | rdreg (w : Word24) (ws : List Word24) (a8 : Addr8) (hq : s.reqs = w :: ws) (hf : s.fault = none) (hp : s.phase = .idle)
      (hd : decodeRequest w = .ok (.rdreg a8)) (hc : s.csN = 1) (ha : a8.toNat < 128) (ht : s.txe = true) :
      MoveRule s .accept
        (setPhase .rdCmd (loadByte (cmd Config.rwRead (regAddr a8)) (openWindow (hostAdvance s))))
  /-- R118. -/
  | wrreg (w : Word24) (ws : List Word24) (a8 : Addr8) (d : Byte) (hq : s.reqs = w :: ws) (hf : s.fault = none)
      (hp : s.phase = .idle) (hd : decodeRequest w = .ok (.wrreg a8 d)) (hc : s.csN = 1) (ha : a8.toNat < 128)
      (ht : s.txe = true) :
      MoveRule s .accept
        (setPhase .wrCmd (loadByte (cmd Config.rwWrite (regAddr a8)) (latchValue d (openWindow (hostAdvance s)))))
  /-- R94, R99. -/
  | endXfer (inb : Byte) (hf : s.fault = none) (hn : s.rxne = true) (hp : s.phase = .xfer) (hr : s.rxbuf = some inb) :
      MoveRule s .complete (respond .ok (some inb) (setPhase .idle (takeReply s)))
  /-- R94, R116. -/
  | endRdCmd (inb : Byte) (hf : s.fault = none) (hn : s.rxne = true) (hp : s.phase = .rdCmd) (hr : s.rxbuf = some inb)
      (ht : s.txe = true) : MoveRule s .complete (setPhase .rdData (loadByte Config.dummyByte (takeReply s)))
  /-- R94, R117. -/
  | endRdData (inb : Byte) (hf : s.fault = none) (hn : s.rxne = true) (hp : s.phase = .rdData) (hr : s.rxbuf = some inb) :
      MoveRule s .complete (respond .ok (some inb) (setPhase .idle (closeWindow (takeReply s))))
  /-- R94, R119. -/
  | endWrCmd (inb v : Byte) (hf : s.fault = none) (hn : s.rxne = true) (hp : s.phase = .wrCmd) (hr : s.rxbuf = some inb)
      (ht : s.txe = true) (hv : s.wdata = some v) :
      MoveRule s .complete (setPhase .wrData (loadByte v { takeReply s with wdata := none }))
  /-- R94, R120. -/
  | endWrData (inb : Byte) (hf : s.fault = none) (hn : s.rxne = true) (hp : s.phase = .wrData) (hr : s.rxbuf = some inb) :
      MoveRule s .complete (respond .ok none (setPhase .idle (closeWindow (takeReply s))))
  /-- R92. -/
  | drain (b : Byte) (ht : s.txe = false) (hb : s.txbuf = some b) (hs : s.shifter = none) :
      MoveRule s .txDrain (drainTx b s)
  /-- R93. -/
  | receive (o inb : Byte) (hs : s.shifter = some o) : MoveRule s (.rxDone inb) (finishRx o inb s)
  /-- R103. -/
  | stall (hf : s.fault = none) (hp : s.phase ≠ .idle) (hn : s.rxne = false) : MoveRule s .stall s
  /-- R142, XFER. -/
  | timeoutXfer (o : Byte) (hf : s.fault = none) (hp : s.phase = .xfer) (hn : s.rxne = false) (ho : s.xout = some o) :
      MoveRule s .timeout (respond .busTimeout none (setPhase .idle (abandonExchange o s)))
  /-- R142, a register transaction. -/
  | timeoutReg (o : Byte) (hf : s.fault = none) (hp : s.phase ≠ .idle) (hx : s.phase ≠ .xfer) (hn : s.rxne = false)
      (ho : s.xout = some o) :
      MoveRule s .timeout (respond .busTimeout none (setPhase .idle (closeWindow (abandonExchange o s))))

/-- An accepted request follows one of ACCEPT's rules. -/
theorem accept_rule {s t : State} {w : Word24} {ws : List Word24} (hq : s.reqs = w :: ws) (hf : s.fault = none)
    (hp : s.phase = .idle) (haw : acceptAwait w s = true) (h : acceptWord w (hostAdvance s) = .next t) :
    MoveRule s .accept t := by
  unfold acceptWord at h
  cases hd : decodeRequest w with
  | error r =>
    simp only [hd] at h
    rw [whenReady_ready _ (by simpa using hf) (by simpa using hp)] at h
    injection h with h; subst h
    exact .illegal w ws r hq hf hp hd
  | ok i =>
    simp only [hd] at h
    simp only [acceptAwait, hd, Bool.or_eq_true, Bool.not_eq_true'] at haw
    obtain ⟨rfl, rfl⟩ | ⟨rfl, rfl⟩ | ⟨d, rfl, rfl⟩ | ⟨a, rfl, rfl⟩ | ⟨a, d, rfl, rfl⟩ := decodeRequest_cases hd
    all_goals
      simp only [exec, execSel, execDesel, execXfer, execRdreg, execWrreg] at h
      rw [whenReady_ready _ (by simpa using hf) (by simpa using hp)] at h
      simp only [hostAdvance_csN] at h
    · by_cases hc : s.csN = 0
      · rw [if_pos hc] at h; injection h with h; subst h
        exact .breach _ _ ws _ hq hf hp hd
      · rw [if_neg hc] at h; injection h with h; subst h
        exact .sel _ ws hq hf hp hd (csN_eq_one hc)
    · by_cases hc : s.csN = 1
      · rw [if_pos hc] at h; injection h with h; subst h
        exact .breach _ _ ws _ hq hf hp hd
      · rw [if_neg hc] at h; injection h with h; subst h
        exact .desel _ ws hq hf hp hd (csN_eq_zero hc)
    · by_cases hc : s.csN = 1
      · rw [if_pos hc] at h; injection h with h; subst h
        exact .breach _ _ ws _ hq hf hp hd
      · have ht : s.txe = true := haw.resolve_right (by simpa [callsStart] using hc)
        rw [if_neg hc, startThen_free _ _ (by simpa using ht)] at h
        injection h with h; subst h
        exact .xfer _ ws d hq hf hp hd (csN_eq_zero hc) ht
    · by_cases hc : s.csN = 0
      · rw [if_pos hc] at h; injection h with h; subst h
        exact .breach _ _ ws _ hq hf hp hd
      · rw [if_neg hc] at h
        by_cases ha : addrOutOfRange a = true
        · rw [if_pos ha] at h; injection h with h; subst h
          exact .invalidAddress _ ws _ hq hf hp hd (csN_eq_one hc) (.inl ⟨a, rfl⟩)
        · have ht : s.txe = true := haw.resolve_right (by simpa [callsStart, Bool.eq_false_iff.mpr ha] using hc)
          rw [if_neg ha, startThen_free _ _ (by simpa using ht)] at h
          injection h with h; subst h
          exact .rdreg _ ws a hq hf hp hd (csN_eq_one hc) (by simpa [addrOutOfRange] using ha) ht
    · by_cases hc : s.csN = 0
      · rw [if_pos hc] at h; injection h with h; subst h
        exact .breach _ _ ws _ hq hf hp hd
      · rw [if_neg hc] at h
        by_cases ha : addrOutOfRange a = true
        · rw [if_pos ha] at h; injection h with h; subst h
          exact .invalidAddress _ ws _ hq hf hp hd (csN_eq_one hc) (.inr ⟨a, d, rfl⟩)
        · have ht : s.txe = true := haw.resolve_right (by simpa [callsStart, Bool.eq_false_iff.mpr ha] using hc)
          rw [if_neg ha, startThen_free _ _ (by simpa using ht)] at h
          injection h with h; subst h
          exact .wrreg _ ws a d hq hf hp hd (csN_eq_one hc) (by simpa [addrOutOfRange] using ha) ht

/-- COMPLETE follows the rule of its phase. -/
theorem complete_rule {s t : State} (hf : s.fault = none) (hn : s.rxne = true) (haw : completeAwait s = true)
    (h : complete s = .next t) : MoveRule s .complete t := by
  obtain ⟨inb, hr, h⟩ := need_next_cases h
  cases hp : s.phase <;> simp only [hp, completeAwait, Bool.false_eq_true] at h haw
  · injection h with h; subst h; exact .endXfer inb hf hn hp hr
  · rw [completeRdCmd, startThen_free _ _ (by simpa using haw)] at h
    injection h with h; subst h; exact .endRdCmd inb hf hn hp hr haw
  · injection h with h; subst h; exact .endRdData inb hf hn hp hr
  · obtain ⟨v, hv, h⟩ := need_next_cases h
    rw [startThen_free _ _ (by simpa using haw)] at h
    injection h with h; subst h; exact .endWrCmd inb v hf hn hp hr haw (by simpa using hv)
  · injection h with h; subst h; exact .endWrData inb hf hn hp hr

/-- An exchange that waits. -/
theorem exchangeWaits_iff (s : State) : exchangeWaits s = true ↔ s.fault = none ∧ s.phase ≠ .idle ∧ s.rxne = false := by
  simp [exchangeWaits, and_assoc]

/-- Everything an enabled step can do. -/
theorem move_of_enabled {cfg : Cfg} {s t : State} {m : Move} (he : enabled cfg s m = true) (h : perform m s = .next t) :
    MoveRule s m t := by
  cases m with
  | accept =>
    cases hq : s.reqs with
    | nil => simp [enabled, hq] at he
    | cons w ws =>
      simp only [enabled, hq, Bool.and_eq_true, Option.isNone_iff_eq_none, decide_eq_true_eq] at he
      simp only [perform, hq] at h
      exact accept_rule hq he.1.1 he.1.2 he.2 h
  | complete =>
    simp only [enabled, Bool.and_eq_true, Option.isNone_iff_eq_none] at he
    exact complete_rule he.1.1 he.1.2 he.2 h
  | txDrain =>
    simp only [enabled, Bool.and_eq_true, Bool.not_eq_true', Option.isNone_iff_eq_none, Option.isSome_iff_exists] at he
    obtain ⟨⟨ht, b, hb⟩, hs⟩ := he
    simp only [perform, hb] at h
    injection h with h; subst h
    exact .drain b ht hb hs
  | rxDone inb =>
    obtain ⟨o, ho⟩ := Option.isSome_iff_exists.mp he
    simp only [perform, ho] at h
    injection h with h; subst h
    exact .receive o inb ho
  | stall =>
    obtain ⟨hf, hp, hn⟩ := (exchangeWaits_iff s).mp he
    injection h with h; subst h
    exact .stall hf hp hn
  | timeout =>
    simp only [enabled, Bool.and_eq_true] at he
    obtain ⟨hf, hp, hn⟩ := (exchangeWaits_iff s).mp he.1
    obtain ⟨o, ho, h⟩ := need_next_cases h
    injection h with h; subst h
    obtain ⟨hx | hx, hw⟩ | ⟨⟨_, hx⟩, hw⟩ := closeOwnWindow_cases s.phase (abandonExchange o s)
    · exact absurd hx hp
    · rw [hw]; exact .timeoutXfer o hf hx hn ho
    · rw [hw]; exact .timeoutReg o hf hp hx hn ho

end Sys2Proof.Machine
end

