-- ==== Sys2Proof/Laws/PerInstr.lean ====
section
/-! SUPPORT. A fact about every instruction as syntax: its encoding matches its row of spec/opcode_table.json (the row's match and
mask, copied from the table). -/

namespace Sys2Proof.Laws.TableRow

/-- The "mask" of an instruction's row. -/
def rowMask : Instr → Code
  | .sel => .hreq 0xFFFFFF
  | .desel => .hreq 0xFFFFFF
  | .xfer _ => .hreq 0xFFFF00
  | .rdreg _ => .hreq 0xFF00FF
  | .wrreg _ _ => .hreq 0xFF0000
  | .wcmdRead _ => .wcmd 1 0x81
  | .wcmdWrite _ => .wcmd 0 0x81
  | .wcmdWriteHi _ => .wcmd 0 0x81

/-- The "match" of an instruction's row. -/
def rowMatch : Instr → Code
  | .sel => .hreq 0x100000
  | .desel => .hreq 0x200000
  | .xfer _ => .hreq 0x300000
  | .rdreg _ => .hreq 0x400000
  | .wrreg _ _ => .hreq 0x500000
  | .wcmdRead _ => .wcmd 1 0x80
  | .wcmdWrite _ => .wcmd 0 0x00
  | .wcmdWriteHi _ => .wcmd 0 0x80

/-- The bits of a code under a mask of the same format. -/
def andCode : Code → Code → Code
  | .hreq w, .hreq m => .hreq (w &&& m)
  | .wcmd rw b, .wcmd _ m => .wcmd rw (b &&& m)
  | c, _ => c

/-- The encoding of the instruction matches its row of the opcode table. -/
def Statement (i : Instr) : Prop := andCode (encode i) (rowMask i) = rowMatch i

theorem sel : Statement .sel := by unfold Statement; decide

theorem desel : Statement .desel := by unfold Statement; decide

theorem xfer (d : Byte) : Statement (.xfer d) := by
  refine congrArg Code.hreq (BitVec.eq_of_getLsbD_eq fun j hj => ?_)
  rw [BitVec.getLsbD_and, hreqWord_getLsbD]
  interval_cases j <;> simp

theorem rdreg (a8 : Addr8) : Statement (.rdreg a8) := by
  refine congrArg Code.hreq (BitVec.eq_of_getLsbD_eq fun j hj => ?_)
  rw [BitVec.getLsbD_and, hreqWord_getLsbD]
  interval_cases j <;> simp

theorem wrreg (a8 : Addr8) (d : Byte) : Statement (.wrreg a8 d) := by
  refine congrArg Code.hreq (BitVec.eq_of_getLsbD_eq fun j hj => ?_)
  rw [BitVec.getLsbD_and, hreqWord_getLsbD]
  interval_cases j <;> simp

theorem wcmdRead (a : BitVec 6) : Statement (.wcmdRead a) := by
  refine congrArg (Code.wcmd 1) ?_
  revert a; decide

theorem wcmdWrite (a : BitVec 6) : Statement (.wcmdWrite a) := by
  refine congrArg (Code.wcmd 0) ?_
  revert a; decide

theorem wcmdWriteHi (a : BitVec 6) : Statement (.wcmdWriteHi a) := by
  refine congrArg (Code.wcmd 0) ?_
  revert a; decide

end Sys2Proof.Laws.TableRow
end

