-- ==== Sys2Proof/WellFormed.lean ====
section
/-! DEFINITION. Which instructions the assembler of 30_encoding.md R83 accepts. -/

namespace Sys2Proof

/-- R83: "An assembler refuses a `byte` or an `addr` out of range": the address of RDREG and of WRREG is a register address,
0 to 127. DESIGN CHOICE (log entry 13): an instruction that fails this check is still a legal spelling (R80); it decodes, and
the machine answers it with INVALID_ADDRESS. -/
def Instr.wellFormed : Instr → Bool
  | .sel => true
  | .desel => true
  | .xfer _ => true
  | .rdreg a8 => decide (a8.toNat < 128)
  | .wrreg a8 _ => decide (a8.toNat < 128)
  | .wcmdRead _ => true
  | .wcmdWrite _ => true
  | .wcmdWriteHi _ => true

end Sys2Proof
end

