-- ==== Sys2Proof/Tests/Slice0.lean ====
section
/-! SUPPORT. The model's own tests (expected results from spec/95_test_vectors.md and the examples of the rules) and, for each
statement with hypotheses, a concrete state and operands that meet them. -/

namespace Sys2Proof.Tests

open Sys2Proof Sys2Proof.Machine

/-! Helpers. -/

/-- The state of an outcome, if there is one. -/
def nextOf (o : Host.Outcome State Fault Refusal) : Option State :=
  match o with
  | .next t => some t
  | .fault _ => none
  | .refused _ => none

/-- Reference mode; the other fields of CFG are read by no rule. -/
def refCfg : Cfg := ⟨0, 0, 0, .msbFirst, .reference⟩

/-- Hardened mode. -/
def hardCfg : Cfg := ⟨0, 0, 0, .msbFirst, .hardened⟩

/-- The SEL-state of 95_test_vectors.md: after one SEL from reset. -/
def selState : State := { State.reset with csN := 0, trace := [.csAssert], rspLog := [⟨.ok, none⟩], hpc := 1 }

/-- An exchange of `o` in phase `p` of a register transaction, its byte in the transmit buffer. -/
def loaded (p : Phase) (o : Byte) : State :=
  { State.reset with csN := 0, phase := p, xout := some o, txbuf := some o, txe := false, trace := [.csAssert], hpc := 1 }

/-- The same exchange, its byte on the shifter. -/
def shifting (p : Phase) (o : Byte) : State := { loaded p o with txbuf := none, txe := true, shifter := some o }

/-- The same exchange, with its reply received. -/
def replied (p : Phase) (o inb : Byte) : State :=
  { shifting p o with shifter := none, rxbuf := some inb, rxne := true, trace := [.csAssert, .xchg o inb] }

/-- The faulted state of V-F4. -/
def faulted : State := { State.reset with fault := some (.illegalRequest, 0x000000), hpc := 1 }

/-- A ready state with a full transmit buffer; no run reaches it. -/
def fullBuffer : State := { State.reset with txbuf := some 0x00, txe := false }

/-! Well-formedness: the check refuses its ill-formed terms. -/

/-- R83: 128 is no register address. -/
theorem test_wellFormed_refuses_rdreg_128 : Instr.wellFormed (.rdreg 0x80) = false := by decide

/-- R83: 255 is no register address. -/
theorem test_wellFormed_refuses_wrreg_255 : Instr.wellFormed (.wrreg 0xFF 0x00) = false := by decide

theorem test_wellFormed_takes_127 : Instr.wellFormed (.rdreg 0x7F) = true ∧ Instr.wellFormed (.wrreg 0x7F 0xFF) = true := by decide

/-! Decoding: a word of each row, bit by bit from R73 and R77. -/

theorem test_decode_sel : decodeTableWord 24 0b000100000000000000000000 = some .sel := by decide

theorem test_decode_desel : decodeTableWord 24 0b001000000000000000000000 = some .desel := by decide

/-- R73: XFER 0x8E. -/
theorem test_decode_xfer : decodeTableWord 24 0b001100000000000010001110 = some (.xfer 0x8E) := by decide

/-- R73: RDREG 7. -/
theorem test_decode_rdreg : decodeTableWord 24 0b010000000000011100000000 = some (.rdreg 7) := by decide

/-- R73: WRREG 0x16, 0x05. -/
theorem test_decode_wrreg : decodeTableWord 24 0b010100000001011000000101 = some (.wrreg 0x16 0x05) := by decide

/-- 95_test_vectors.md 1.2: read of address 7 is 0x8E. -/
theorem test_decode_wcmdRead : decodeTableWord 8 0b10001110 = some (.wcmdRead 7) := by decide

/-- 95_test_vectors.md 1.2: write of address 22 is 0x2C. -/
theorem test_decode_wcmdWrite : decodeTableWord 8 0b00101100 = some (.wcmdWrite 22) := by decide

/-- V-R6: the write of address 64 sends 0x80; the intent tells it from a read. -/
theorem test_decode_wcmdWriteHi : decodeCommand 0 0b10000000 = .ok (.wcmdWriteHi 0) := by decide

/-- V-F3, V-F4, V-F8 and V-F1: words that spell no request. -/
theorem test_decode_refuses_by_name :
    decodeRequest 0x100001 = .error .dataField ∧ decodeRequest 0x000000 = .error .reservedOp ∧
    decodeRequest 0x400701 = .error .dataField ∧ decodeRequest 0x600000 = .error .reservedOp ∧
    decodeRequest 0x310000 = .error .reservedField ∧ decodeRequest 0x300100 = .error .addrField := by decide

theorem test_decode_refuses_odd_command : decodeWire 0x8F = .error .wireBit0 := by decide

/-! One step of each instruction. -/

/-- The example of R96. -/
theorem test_sel_example : (nextOf (exec .sel State.reset)).map (fun t => (t.csN, t.trace, t.rspLog)) =
    some (0, [.csAssert], [⟨.ok, none⟩]) := by decide

/-- V-B9: SEL in an open window. -/
theorem test_sel_twice_faults : (nextOf (exec .sel selState)).map (fun t => (t.csN, t.fault)) =
    some (0, some (.selectWhileSelected, 0x100000)) := by decide

/-- The example of R97. -/
theorem test_desel_example : (nextOf (exec .desel selState)).map (fun t => (t.csN, t.trace, t.rspLog)) =
    some (1, [.csAssert, .csDeassert], [⟨.ok, none⟩, ⟨.ok, none⟩]) := by decide

/-- R97: "DESEL right after reset faults." -/
theorem test_desel_at_reset_faults : (nextOf (exec .desel State.reset)).map (fun t => (t.trace, t.fault)) =
    some ([], some (.deselectWhileDeselected, 0x200000)) := by decide

/-- R98. -/
theorem test_xfer_starts : (nextOf (exec (.xfer 0x8E) selState)).map (fun t => (t.phase, t.txbuf, t.txe, t.xout)) =
    some (.xfer, some 0x8E, false, some 0x8E) := by decide

/-- The example of R99. -/
theorem test_xfer_ends : (nextOf (perform .complete (replied .xfer 0x8E 0x3C))).map (fun t => (t.phase, t.csN, t.rspLog)) =
    some (.idle, 0, [⟨.ok, some 0x3C⟩]) := by decide

/-- 95_test_vectors.md 2.5, step 1 of V-R1. -/
theorem test_rdreg_starts : (nextOf (exec (.rdreg 7) State.reset)).map (fun t => (t.csN, t.trace, t.txbuf, t.phase)) =
    some (0, [.csAssert], some 0x8E, .rdCmd) := by decide

/-- V-R8: address 128. -/
theorem test_rdreg_128 : (nextOf (exec (.rdreg 0x80) State.reset)).map (fun t => (t.csN, t.trace, t.rspLog)) =
    some (1, [], [⟨.invalidAddress, none⟩]) := by decide

/-- V-R4, first step. -/
theorem test_wrreg_starts : (nextOf (exec (.wrreg 0x16 0x05) State.reset)).map (fun t => (t.wdata, t.txbuf, t.phase)) =
    some (some 0x05, some 0x2C, .wrCmd) := by decide

/-- V-R11: WRREG in an open window latches nothing. -/
theorem test_wrreg_in_window : (nextOf (exec (.wrreg 0x16 0x05) selState)).map (fun t => (t.wdata, t.fault)) =
    some (none, some (.regOpInsideWindow, 0x501605)) := by decide

/-- R115 with 95_test_vectors.md 2.2: the byte of a read of 7. -/
theorem test_wcmdRead : (nextOf (exec (.wcmdRead 7) selState)).map (fun t => (t.txbuf, t.xout)) =
    some (some 0x8E, some 0x8E) := by decide

/-- R118 with 95_test_vectors.md 2.2: the byte of a write of 22. -/
theorem test_wcmdWrite : (nextOf (exec (.wcmdWrite 22) selState)).map (fun t => (t.txbuf, t.xout)) =
    some (some 0x2C, some 0x2C) := by decide

/-- V-R6: the byte of a write of 64. -/
theorem test_wcmdWriteHi : (nextOf (exec (.wcmdWriteHi 0) selState)).map (fun t => (t.txbuf, t.xout)) =
    some (some 0x80, some 0x80) := by decide

/-- V-F1: the decoding is checked before the window. -/
theorem test_illegal_before_window : (nextOf (acceptWord 0x600000 selState)).map (fun t => t.fault) =
    some (some (.illegalRequest, 0x600000)) := by decide

/-- V-T1: a timeout in RD_CMD. -/
theorem test_timeout_rdCmd : (nextOf (perform .timeout (loaded .rdCmd 0x8E))).map (fun t => (t.trace, t.rspLog, t.csN, t.txe)) =
    some ([.csAssert, .xchgAbort 0x8E, .csDeassert], [⟨.busTimeout, none⟩], 1, true) := by decide

/-- V-T5: a timeout in XFER keeps the window. -/
theorem test_timeout_xfer : (nextOf (perform .timeout (loaded .xfer 0xA5))).map (fun t => (t.trace, t.csN)) =
    some ([.csAssert, .xchgAbort 0xA5], 0) := by decide

/-- V-T7: with the reply in, no timeout. -/
theorem test_no_timeout_after_reply : enabled hardCfg (replied .rdCmd 0x8E 0x00) .timeout = false := by decide

/-- V-F6: the ports of the faulted state of V-B9. -/
theorem test_ports_when_faulted :
    let t := { selState with fault := some (.selectWhileSelected, 0x100000) }
    reqReady t = false ∧ busy t = false ∧ faultCode t = 2 ∧ csPin t = 0 := by decide

/-- R31, V-R1 step 1: `step` runs the word HOST is given, from reset. -/
theorem test_step_runs_placed_word : (nextOf (step (State.reset.withFetchWord 24 0x400700))).map (fun t => (t.txbuf, t.hpc, t.reqs)) =
    some (some 0x8E, 1, []) := by decide

/-- R83: an example line, and operands out of range. -/
theorem test_assembler : assembleLine "wrreg 0x16, 0x05 ; configure".toList = some [0x501605] ∧
    assembleLine "RDREG 128".toList = none ∧ assembleLine " ; nothing".toList = some [] := by decide

/-! Witnesses: the hypotheses of each statement can be met, clause by clause. -/

theorem witness_SelOpensTheWindow :
    (Ready State.reset ∧ State.reset.csN = 1) ∧ (Ready selState ∧ selState.csN = 0) := by decide

theorem witness_DeselClosesTheWindow :
    (Ready selState ∧ selState.csN = 0) ∧ (Ready State.reset ∧ State.reset.csN = 1) := by decide

theorem witness_XferStartsAnExchange :
    (Ready selState ∧ selState.csN = 0 ∧ selState.txe = true) ∧ (Ready State.reset ∧ State.reset.csN = 1) := by decide

theorem witness_XferEndsWithItsReply :
    let s := replied .xfer 0x8E 0x3C
    s.fault = none ∧ s.phase = .xfer ∧ s.rxne = true ∧ s.rxbuf = some 0x3C := by decide

theorem witness_RdregOpensAndSendsCommand :
    (Ready State.reset ∧ State.reset.csN = 1 ∧ (0x7F : Addr8).toNat < 128 ∧ State.reset.txe = true) ∧
    (Ready State.reset ∧ State.reset.csN = 1 ∧ 128 ≤ (0x80 : Addr8).toNat) ∧ (Ready selState ∧ selState.csN = 0) := by decide

theorem witness_RdregCommandPhaseEnds :
    let s := replied .rdCmd 0x8E 0x00
    s.fault = none ∧ s.phase = .rdCmd ∧ s.rxne = true ∧ s.rxbuf = some 0x00 ∧ s.txe = true := by decide

theorem witness_RdregDataPhaseEnds :
    let s := replied .rdData 0x00 0x41
    s.fault = none ∧ s.phase = .rdData ∧ s.rxne = true ∧ s.rxbuf = some 0x41 := by decide

theorem witness_WrregOpensAndSendsCommand :
    (Ready State.reset ∧ State.reset.csN = 1 ∧ (0x7F : Addr8).toNat < 128 ∧ State.reset.txe = true) ∧
    (Ready State.reset ∧ State.reset.csN = 1 ∧ 128 ≤ (0xFF : Addr8).toNat) ∧ (Ready selState ∧ selState.csN = 0) := by decide

theorem witness_WrregCommandPhaseEnds :
    let s := { replied .wrCmd 0x2C 0x00 with wdata := some 0x05 }
    s.fault = none ∧ s.phase = .wrCmd ∧ s.rxne = true ∧ s.rxbuf = some 0x00 ∧ s.txe = true ∧ s.wdata = some 0x05 := by decide

theorem witness_WrregDataPhaseEnds :
    let s := replied .wrData 0x05 0x00
    s.fault = none ∧ s.phase = .wrData ∧ s.rxne = true ∧ s.rxbuf = some 0x00 := by decide

theorem witness_TxDrainMovesByteToShifter :
    let s := loaded .rdCmd 0x8E
    s.txe = false ∧ s.txbuf = some 0x8E ∧ s.shifter = none := by decide

theorem witness_RxDoneReceivesAnyByte : (shifting .rdCmd 0x8E).shifter = some 0x8E := by decide

theorem witness_StallChangesNothing :
    enabled refCfg (loaded .rdCmd 0x8E) .stall = true ∧ enabled refCfg State.reset .stall = false := by decide

theorem witness_TimeoutAbandonsTheExchange :
    (let s := loaded .rdCmd 0x8E
     hardCfg.timeoutMode = .hardened ∧ s.fault = none ∧ s.phase ≠ .idle ∧ s.rxne = false ∧ s.xout = some 0x8E) ∧
    (let s := shifting .xfer 0xA5
     hardCfg.timeoutMode = .hardened ∧ s.fault = none ∧ s.phase = .xfer ∧ s.rxne = false ∧ s.xout = some 0xA5) := by decide

theorem witness_TimeoutNeedsHardenedMode :
    enabled hardCfg (loaded .rdCmd 0x8E) .timeout = true ∧ enabled refCfg (loaded .rdCmd 0x8E) .timeout = false := by decide

theorem witness_AcceptChecksInOrder_selected : Ready selState ∧ selState.csN = 0 ∧
    decodeRequest 0x600000 = .error .reservedOp ∧ decodeRequest 0x100000 = .ok .sel ∧
    decodeRequest 0x408000 = .ok (.rdreg 0x80) ∧ decodeRequest 0x501605 = .ok (.wrreg 0x16 0x05) := by decide

theorem witness_AcceptChecksInOrder_deselected : Ready State.reset ∧ State.reset.csN = 1 ∧
    decodeRequest 0x200000 = .ok .desel ∧ decodeRequest 0x3000A5 = .ok (.xfer 0xA5) ∧
    decodeRequest 0x408000 = .ok (.rdreg 0x80) ∧ 128 ≤ (0x80 : Addr8).toNat ∧
    decodeRequest 0x50FFFF = .ok (.wrreg 0xFF 0xFF) ∧ 128 ≤ (0xFF : Addr8).toNat := by decide

theorem witness_StepRunsTheDecodedRequest :
    let s := { State.reset with reqs := [0x400700] }
    StateInv s ∧ Ready s ∧ s.reqs = [0x400700] ∧ decodeRequest 0x400700 = .ok (.rdreg 7) := by decide

theorem witness_StepRaisesIllegalRequest :
    let s := { State.reset with reqs := [0x000000] }
    StateInv s ∧ Ready s ∧ s.reqs = [0x000000] ∧ decodeRequest 0x000000 = .error .reservedOp := by decide

theorem witness_WireCommandsStartTheirByte : Ready State.reset ∧ State.reset.txe = true := by decide

theorem witness_RequestsRunTheirWireCommand :
    Ready State.reset ∧ State.reset.csN = 1 ∧ (0x3F : Addr8).toNat < 64 ∧ (0x7F : Addr8).toNat < 128 ∧ ¬ (0x7F : Addr8).toNat < 64 ∧
    State.reset.txe = true := by decide

/-- The last clause, at the highest address that keeps the intent. -/
theorem witness_CommandByteFields : (63 : Addr7).toNat < 64 ∧ ¬ (64 : Addr7).toNat < 64 := by decide

theorem witness_HighAddressesCollideOnTheWire :
    (64 ≤ (64 : Addr7).toNat ∧ (0 : BitVec 6) = (64 : Addr7).setWidth 6) ∧
    (64 ≤ (127 : Addr7).toNat ∧ (63 : BitVec 6) = (127 : Addr7).setWidth 6) := by decide

theorem witness_LowAddressesAreUnambiguous :
    (63 : Addr7).toNat < 64 ∧ cmd 1 (63 : Addr7) = cmd 1 (63 : Addr7) := by decide

theorem witness_FaultEntryIsPrecise :
    let s := { selState with reqs := [0x100000] }
    enabled refCfg s .accept = true ∧ ∃ t, perform .accept s = .next t ∧ t.fault ≠ s.fault :=
  ⟨by decide, _, rfl, by decide⟩

theorem witness_InstructionFrames_sel_desel :
    (∃ t, exec .sel State.reset = .next t) ∧ ∃ t, exec .desel selState = .next t := ⟨⟨_, rfl⟩, _, rfl⟩

theorem witness_InstructionFrames_xfer : ∃ t, exec (.xfer 0xA5) selState = .next t := ⟨_, rfl⟩

theorem witness_InstructionFrames_rdreg_wrreg :
    (∃ t, exec (.rdreg 0x7F) State.reset = .next t) ∧ ∃ t, exec (.wrreg 0x7F 0x05) State.reset = .next t := ⟨⟨_, rfl⟩, _, rfl⟩

theorem witness_InstructionFrames_wcmd :
    (∃ t, exec (.wcmdRead 63) State.reset = .next t) ∧ (∃ t, exec (.wcmdWrite 63) State.reset = .next t) ∧
    ∃ t, exec (.wcmdWriteHi 63) State.reset = .next t := ⟨⟨_, rfl⟩, ⟨_, rfl⟩, _, rfl⟩

theorem witness_FlagsChangeOnlyAsTabled_active :
    (let s := { State.reset with reqs := [0x100000] }
     enabled refCfg s .accept = true ∧ ∃ t, perform .accept s = .next t ∧ active s = false ∧ active t = true) ∧
    (let s := { selState with reqs := [0x200000] }
     enabled refCfg s .accept = true ∧ ∃ t, perform .accept s = .next t ∧ active s = true ∧ active t = false) :=
  ⟨⟨by decide, _, rfl, by decide, by decide⟩, by decide, _, rfl, by decide, by decide⟩

theorem witness_FlagsChangeOnlyAsTabled_busy :
    (let s := { selState with reqs := [0x3000A5] }
     enabled refCfg s .accept = true ∧ ∃ t, perform .accept s = .next t ∧ busy s = false ∧ busy t = true ∧ s.txe = true ∧ t.txe = false) ∧
    (let s := replied .rdData 0x00 0x41
     enabled refCfg s .complete = true ∧
     ∃ t, perform .complete s = .next t ∧ busy s = true ∧ busy t = false ∧ s.rxne = true ∧ t.rxne = false) :=
  ⟨⟨by decide, _, rfl, by decide, by decide, by decide, by decide⟩, by decide, _, rfl, by decide, by decide, by decide, by decide⟩

theorem witness_FlagsChangeOnlyAsTabled_env :
    (let s := loaded .rdCmd 0x8E
     enabled refCfg s .txDrain = true ∧ ∃ t, perform .txDrain s = .next t ∧ s.txe = false ∧ t.txe = true) ∧
    (let s := shifting .rdCmd 0x8E
     enabled refCfg s (.rxDone 0x00) = true ∧ ∃ t, perform (.rxDone 0x00) s = .next t ∧ s.rxne = false ∧ t.rxne = true) :=
  ⟨⟨by decide, _, rfl, by decide, by decide⟩, by decide, _, rfl, by decide, by decide⟩

theorem witness_FlagsChangeOnlyAsTabled_fault :
    let s := { State.reset with reqs := [0x000000] }
    enabled refCfg s .accept = true ∧ ∃ t, perform .accept s = .next t ∧ s.fault = none ∧ t.fault ≠ none :=
  ⟨by decide, _, rfl, by decide, by decide⟩

/-- The last clause, `s.fault ≠ none`: a step enabled with a fault recorded exists in states that no run reaches. -/
theorem witness_FlagsChangeOnlyAsTabled_faulted :
    let s := { faulted with shifter := some 0x00 }
    enabled refCfg s (.rxDone 0x00) = true ∧ s.fault ≠ none ∧ ∃ t, perform (.rxDone 0x00) s = .next t :=
  ⟨by decide, by decide, _, rfl⟩

theorem witness_LogsOnlyGrow :
    enabled hardCfg (loaded .rdCmd 0x8E) .timeout = true ∧ ∃ t, perform .timeout (loaded .rdCmd 0x8E) = .next t := ⟨by decide, _, rfl⟩

theorem witness_FaultedBlockStops : StateInv faulted ∧ faulted.fault = some (.illegalRequest, 0x000000) := by decide

theorem witness_BusyBlockTakesNoRequest : (loaded .rdCmd 0x8E).fault = none ∧ (loaded .rdCmd 0x8E).phase ≠ .idle := by decide

theorem witness_FullTransmitBufferHolds :
    let s := { fullBuffer with reqs := [0x400700] }
    Ready s ∧ s.txe = false ∧ callsStart (.rdreg 7) s = true ∧ s.reqs = [0x400700] ∧ decodeRequest 0x400700 = .ok (.rdreg 7) := by decide

theorem witness_EnabledStepsWhileBusy :
    (StateInv (replied .rdCmd 0x8E 0x00) ∧ (replied .rdCmd 0x8E 0x00).phase ≠ .idle ∧ (replied .rdCmd 0x8E 0x00).rxne = true) ∧
    (StateInv (loaded .rdCmd 0x8E) ∧ (loaded .rdCmd 0x8E).phase ≠ .idle ∧ (loaded .rdCmd 0x8E).rxne = false) :=
  ⟨by decide, by decide⟩

theorem witness_IdleMachineWaits : StateInv State.reset ∧ Ready State.reset ∧ State.reset.reqs = [] := by decide

/-- The hypotheses of the four statements about an invariant that `step` keeps. -/
theorem witness_StepKeepsTheInvariants :
    let s := { State.reset with reqs := [0x400700] }
    StateInv s ∧ TraceInv s ∧ RequestCountInv s ∧ ResponseDataInv s ∧ ∃ t, step s = .next t :=
  ⟨by decide, by decide, by decide, by decide, _, rfl⟩

theorem witness_EveryAgentStepKeepsTheInvariants :
    let s := loaded .rdCmd 0x8E
    StateInv s ∧ TraceInv s ∧ RequestCountInv s ∧ ResponseDataInv s ∧
    enabled hardCfg s .timeout = true ∧ ∃ t, perform .timeout s = .next t :=
  ⟨by decide, by decide, by decide, by decide, by decide, _, rfl⟩

theorem witness_StepReadsNoMissingValue : StateInv (replied .rdCmd 0x8E 0x00) := by decide

theorem witness_EveryEnabledStepMayBeNext : enabled hardCfg (loaded .rdCmd 0x8E) .timeout = true := by decide

theorem witness_ReadTransactionOutcomes :
    let s := { State.reset with reqs := [0x407F00] }
    StateInv s ∧ Ready s ∧ s.csN = 1 ∧ (0x7F : Addr8).toNat < 128 ∧
    s.reqs = (0x400000#24 ||| ((0x7F : Addr8).setWidth 24 <<< 8)) :: [] ∧ (∀ m ∈ [Move.timeout], m ≠ .accept) ∧
    ∃ t, runMoves hardCfg [.accept, .timeout] s = some t ∧ t.phase = .idle :=
  ⟨by decide, by decide, by decide, by decide, by decide, by decide, _, rfl, by decide⟩

theorem witness_WriteTransactionOutcomes :
    let s := { State.reset with reqs := [0x507F05] }
    StateInv s ∧ Ready s ∧ s.csN = 1 ∧ (0x7F : Addr8).toNat < 128 ∧
    s.reqs = (0x500000#24 ||| ((0x7F : Addr8).setWidth 24 <<< 8) ||| (0x05 : Byte).setWidth 24) :: [] ∧
    (∀ m ∈ [Move.timeout], m ≠ .accept) ∧ ∃ t, runMoves hardCfg [.accept, .timeout] s = some t ∧ t.phase = .idle :=
  ⟨by decide, by decide, by decide, by decide, by decide, by decide, _, rfl, by decide⟩

theorem witness_PrimitiveExchangeOutcomes :
    let s := { selState with reqs := [0x3000A5] }
    StateInv s ∧ Ready s ∧ s.csN = 0 ∧ s.reqs = (0x300000#24 ||| (0xA5 : Byte).setWidth 24) :: [] ∧
    (∀ m ∈ [Move.timeout], m ≠ .accept) ∧ ∃ t, runMoves hardCfg [.accept, .timeout] s = some t ∧ t.phase = .idle :=
  ⟨by decide, by decide, by decide, by decide, by decide, _, rfl, by decide⟩

theorem witness_PrimitivesMatchTheCodec :
    StateInv State.reset ∧ Ready State.reset ∧ State.reset.csN = 1 ∧ ((1 : Bit) = 1 → (0x00 : Byte) = 0x00) ∧
    ((0 : Bit) = 1 → (0x05 : Byte) = 0x00) := by decide

theorem witness_EchoDeviceRoundTrip :
    let s := { State.reset with reqs := [0x503F80, 0x403F00] }
    StateInv s ∧ Ready s ∧ s.csN = 1 ∧ (63 : Addr8).toNat < 64 ∧
    s.reqs = [0x500000#24 ||| ((63 : Addr8).setWidth 24 <<< 8) ||| (0x80 : Byte).setWidth 24,
      0x400000#24 ||| ((63 : Addr8).setWidth 24 <<< 8)] := by decide

theorem witness_EchoDeviceLosesHighWrites :
    let s := { State.reset with reqs := [0x504077, 0x404000] }
    StateInv s ∧ Ready s ∧ s.csN = 1 ∧ 64 ≤ (64 : Addr8).toNat ∧ (64 : Addr8).toNat < 128 ∧ (127 : Addr8).toNat < 128 ∧
    s.reqs = [0x500000#24 ||| ((64 : Addr8).setWidth 24 <<< 8) ||| (0x77 : Byte).setWidth 24,
      0x400000#24 ||| ((64 : Addr8).setWidth 24 <<< 8)] := by decide

/-- A run with one move: `m` from `s` to `t`, after which no step is enabled. -/
def oneMoveRun (s t : State) (n : Nat) : State := if n = 0 then s else t

/-- The moves of that run. -/
def oneMove (m : Move) (n : Nat) : Option Move := if n = 0 then some m else none

/-- The state after V-T1. -/
def afterTimeout : State :=
  { State.reset with
    trace := [.csAssert, .xchgAbort 0x8E, .csDeassert], rspLog := [⟨.busTimeout, none⟩], hpc := 1 }

/-- The state after the reply to XFER 0x8E of R99's example. -/
def afterReply : State :=
  { selState with rxbuf := some 0x3C, trace := [.csAssert, .xchg 0x8E 0x3C], rspLog := [⟨.ok, some 0x3C⟩] }

theorem enabled_of_done {cfg : Cfg} {s : State} (hp : s.phase = .idle) (hq : s.reqs = []) (ht : s.txe = true) (hs : s.shifter = none)
    (hr : s.rxne = false) (m : Move) : enabled cfg s m = false := by
  cases m <;> simp [enabled, exchangeWaits, hp, hq, ht, hs, hr]

theorem oneMove_isRun {cfg : Cfg} {s t : State} {m : Move} (he : enabled cfg s m = true) (hp : perform m s = .next t)
    (hd : ∀ m, enabled cfg t m = false) : IsRun cfg (oneMoveRun s t) (oneMove m) := by
  intro n
  cases n with
  | zero => exact ⟨he, hp⟩
  | succ n => exact ⟨hd, rfl⟩

theorem oneMove_fair {cfg : Cfg} {s t : State} {m : Move} (p : Move → Prop) (hd : ∀ m, enabled cfg t m = false) :
    WeaklyFair cfg p (oneMoveRun s t) (oneMove m) := by
  intro n h
  obtain ⟨m', _, he⟩ := h (n + 1) (Nat.le_succ n)
  exact absurd ((hd m').symm.trans he) (by decide)

theorem witness_HardenedRequestsEnd :
    let run := oneMoveRun (loaded .rdCmd 0x8E) afterTimeout
    hardCfg.timeoutMode = .hardened ∧ StateInv (run 0) ∧ IsRun hardCfg run (oneMove .timeout) ∧
    TimeoutFair hardCfg run (oneMove .timeout) :=
  have hd : ∀ m, enabled hardCfg afterTimeout m = false := enabled_of_done rfl rfl rfl rfl rfl
  ⟨by decide, (by decide : StateInv (loaded .rdCmd 0x8E)), oneMove_isRun (by decide) rfl hd, oneMove_fair _ hd⟩

theorem witness_ResponsiveDeviceRequestsEnd :
    let run := oneMoveRun (replied .xfer 0x8E 0x3C) afterReply
    StateInv (run 0) ∧ IsRun refCfg run (oneMove .complete) ∧ DeviceResponsive refCfg run (oneMove .complete) :=
  have hd : ∀ m, enabled refCfg afterReply m = false := enabled_of_done rfl rfl rfl rfl rfl
  ⟨(by decide : StateInv (replied .xfer 0x8E 0x3C)), oneMove_isRun (by decide) rfl hd, oneMove_fair _ hd, oneMove_fair _ hd⟩

theorem witness_ReferenceModeCanHang :
    let s := loaded .rdCmd 0x8E
    refCfg.timeoutMode = .reference ∧ s.fault = none ∧ s.phase ≠ .idle ∧ s.rxne = false := by decide

theorem witness_RequestEndsWithinSixSteps :
    let s := loaded .rdCmd 0x8E
    let ms := [Move.txDrain, .rxDone 0x00, .complete, .txDrain, .rxDone 0x41, .complete]
    StateInv s ∧ s.phase ≠ .idle ∧ (∀ m ∈ ms, m ≠ .stall) ∧ 6 ≤ ms.length ∧ ∃ t, runMoves refCfg ms s = some t :=
  ⟨by decide, by decide, by decide, by decide, _, rfl⟩

theorem witness_AssemblerWordsAndRanges :
    (255 < 256 ∧ 127 < 128 ∧ 0xFFFFFF < 2 ^ 24) ∧ (256 ≤ 256 ∧ 128 ≤ 128 ∧ 2 ^ 24 ≤ 0x1000000) := by decide

theorem witness_RunEndsWhenFaultedOrDone : StateInv State.reset ∧ StateInv faulted ∧ StateInv selState :=
  ⟨by decide, by decide, by decide⟩

theorem witness_PlacedWireCommandIsSentNext :
    StateInv State.reset ∧ Ready State.reset ∧ State.reset.csN = 1 ∧
    decodeWire 0xFE = .ok (.wcmdRead 63) ∧ decodeWire 0x7E = .ok (.wcmdWrite 63) := by decide

end Sys2Proof.Tests
end

section
/-! The command byte of R78 as the wire byte of R77: its fields are `rw | a[6]`, `a[5:0]` and 0. -/

namespace Sys2Proof.Machine

/-- R78: `trunc_8` never removes a bit of the command byte. -/
theorem cmd_value_lt (rw : Bit) (a : Addr7) : (rw.toNat <<< 7) ||| (a.toNat <<< 1) < 256 := by
  have hrw : rw.toNat <<< 7 < 2 ^ 8 := Nat.shiftLeft_lt rw.isLt
  have ha : a.toNat <<< 1 < 2 ^ 8 := Nat.shiftLeft_lt a.isLt
  exact Nat.or_lt_two_pow hrw ha

theorem cmd_getLsbD (rw : Bit) (a : Addr7) {j : Nat} (hj : j < 8) :
    (cmd rw a).getLsbD j = (decide (7 ≤ j) && rw.getLsbD (j - 7) || decide (1 ≤ j) && a.getLsbD (j - 1)) := by
  simp only [cmd, trunc8, BitVec.getLsbD_ofNat, hj, Nat.testBit_or, Nat.testBit_shiftLeft, BitVec.testBit_toNat,
    decide_true, Bool.true_and, ge_iff_le]

theorem wcmdByte_getLsbD (rw : Bit) (a : BitVec 6) (j : Nat) :
    (wcmdByte rw a).getLsbD j = if j < 1 then false else if j - 1 < 6 then a.getLsbD (j - 1) else rw.getLsbD (j - 1 - 6) := by
  simp only [wcmdByte, Config.cmdBit0, BitVec.getLsbD_append, BitVec.ofNat_eq_ofNat, BitVec.getLsbD_zero]

/-- R77 with the note of R78: the command byte is the wire byte whose bit 7 is `rw | a[6]` and whose address field is `a[5:0]`. -/
theorem cmd_eq_wcmdByte (rw : Bit) (a : Addr7) :
    cmd rw a = wcmdByte (rw ||| a.extractLsb' 6 1) (a.extractLsb' 0 6) := by
  refine BitVec.eq_of_getLsbD_eq fun j hj => ?_
  rw [cmd_getLsbD rw a hj, wcmdByte_getLsbD]
  split
  case isTrue h0 => simp [show j = 0 by omega]
  case isFalse h0 =>
    split
    case isTrue hA => simp [show ¬ 7 ≤ j by omega, show 1 ≤ j by omega, hA]
    case isFalse hA => simp [show j = 7 by omega]

@[simp] theorem wireRw_cmd (rw : Bit) (a : Addr7) : wireRw (cmd rw a) = rw ||| a.extractLsb' 6 1 := by
  rw [cmd_eq_wcmdByte, wireRw_wcmdByte]

@[simp] theorem wireAddr_cmd (rw : Bit) (a : Addr7) : wireAddr (cmd rw a) = a.extractLsb' 0 6 := by
  rw [cmd_eq_wcmdByte, wireAddr_wcmdByte]

@[simp] theorem wireBit0_cmd (rw : Bit) (a : Addr7) : wireBit0 (cmd rw a) = 0 := by
  rw [cmd_eq_wcmdByte, wireBit0_wcmdByte]

/-- Bit 6 of an address is 0 exactly for the addresses 0 to 63. -/
theorem addr_bit6_eq_zero_iff (a : Addr7) : a.extractLsb' 6 1 = 0 ↔ a.toNat < 64 := by
  have ha := a.isLt
  rw [← BitVec.toNat_inj, BitVec.extractLsb'_toNat, Nat.shiftRight_eq_div_pow, BitVec.ofNat_eq_ofNat, BitVec.toNat_zero]
  omega

/-- R78: for the addresses 0 to 63 bit 7 of the command byte keeps the intent. -/
theorem wireRw_cmd_of_lt {rw : Bit} {a : Addr7} (h : a.toNat < 64) : wireRw (cmd rw a) = rw := by
  rw [wireRw_cmd, (addr_bit6_eq_zero_iff a).2 h]
  exact BitVec.or_zero

/-- Settles O23: the command byte is a wire byte (`cmd_eq_wcmdByte`), and the clauses are its three fields. -/
theorem commandByteFields : Obligations.CommandByteFields := fun rw a =>
  ⟨rfl, (cmd rw a).isLt, cmd_value_lt rw a, wireBit0_cmd rw a, wireAddr_cmd rw a, wireRw_cmd rw a, wireRw_cmd_of_lt⟩

end Sys2Proof.Machine
end

section
/-! The Bus Transport: SEL and DESEL of a ready block at each chip-select level, the end of XFER, and ENV's steps, each by its await
and its effect. The rules are stated with the shared operations; an obligation is then their record updates written out. -/

namespace Sys2Proof.Machine

/-- R96, the window closed. -/
theorem exec_sel_deselected {s : State} (hr : Ready s) (hc : s.csN = 1) :
    exec .sel s = .next (respond .ok none (openWindow s)) := by
  have hne : s.csN ≠ 0 := by rw [hc]; decide
  rw [exec, execSel, whenReady_ready _ hr.1 hr.2, if_neg hne]

/-- R96, the window open. -/
theorem exec_sel_selected {s : State} (hr : Ready s) (hc : s.csN = 0) :
    exec .sel s = .next (raiseFault .selectWhileSelected (hreqWord 0x1 0 0) s) := by
  rw [exec, execSel, whenReady_ready _ hr.1 hr.2, if_pos hc]

/-- R97, the window open. -/
theorem exec_desel_selected {s : State} (hr : Ready s) (hc : s.csN = 0) :
    exec .desel s = .next (respond .ok none (closeWindow s)) := by
  have hne : s.csN ≠ 1 := by rw [hc]; decide
  rw [exec, execDesel, whenReady_ready _ hr.1 hr.2, if_neg hne]

/-- R97, the window closed. -/
theorem exec_desel_deselected {s : State} (hr : Ready s) (hc : s.csN = 1) :
    exec .desel s = .next (raiseFault .deselectWhileDeselected (hreqWord 0x2 0 0) s) := by
  rw [exec, execDesel, whenReady_ready _ hr.1 hr.2, if_pos hc]

/-- R94: the await of COMPLETE. -/
theorem enabled_complete_iff (cfg : Cfg) (s : State) :
    enabled cfg s .complete = true ↔ s.fault = none ∧ s.rxne = true ∧ completeAwait s = true := by
  simp only [enabled, Bool.and_eq_true, Option.isNone_iff_eq_none, and_assoc]

/-- R94 and R99: the effect of COMPLETE in phase XFER. -/
theorem perform_complete_xfer {s : State} {inb : Byte} (hp : s.phase = .xfer) (hb : s.rxbuf = some inb) :
    perform .complete s = .next (respond .ok (some inb) (setPhase .idle (takeReply s))) := by
  rw [perform, complete, need_some _ hb, hp, completeXfer]

/-- R92: the await of ENV_TX_DRAIN. -/
theorem enabled_txDrain_iff (cfg : Cfg) (s : State) :
    enabled cfg s .txDrain = true ↔ s.txe = false ∧ s.txbuf ≠ none ∧ s.shifter = none := by
  simp only [enabled, Bool.and_eq_true, Bool.not_eq_true', Option.isNone_iff_eq_none, Option.isSome_iff_ne_none, and_assoc]

/-- R92: the effect of ENV_TX_DRAIN. -/
theorem perform_txDrain {s : State} {b : Byte} (hb : s.txbuf = some b) : perform .txDrain s = .next (drainTx b s) := by
  rw [perform, hb]

/-- R93: the await of ENV_RX_DONE. -/
theorem enabled_rxDone_iff (cfg : Cfg) (s : State) (inb : Byte) :
    enabled cfg s (.rxDone inb) = true ↔ s.shifter ≠ none := by
  rw [enabled, Option.isSome_iff_ne_none]

/-- R93: the effect of ENV_RX_DONE. -/
theorem perform_rxDone {s : State} {o : Byte} (inb : Byte) (ho : s.shifter = some o) :
    perform (.rxDone inb) s = .next (finishRx o inb s) := by
  rw [perform, ho]

/-- Settles O3: SEL by the chip-select level; the recorded word is SEL's encoding. -/
theorem selOpensTheWindow : Obligations.SelOpensTheWindow := by
  refine ⟨by decide, fun s hr => ⟨exec_sel_deselected hr, fun hc => ?_⟩⟩
  have hw : hreqWord 0x1 0 0 = 0x100000 := by decide
  rw [exec_sel_selected hr hc, hw, raiseFault]

/-- Settles O4: DESEL by the chip-select level; the recorded word is DESEL's encoding. -/
theorem deselClosesTheWindow : Obligations.DeselClosesTheWindow := by
  refine ⟨by decide, fun s hr => ⟨exec_desel_selected hr, fun hc => ?_⟩⟩
  have hw : hreqWord 0x2 0 0 = 0x200000 := by decide
  rw [exec_desel_deselected hr hc, hw, raiseFault]

/-- Settles O6: in phase XFER, COMPLETE awaits the reply only, and its continuation is that of R99. -/
theorem xferEndsWithItsReply : Obligations.XferEndsWithItsReply := by
  intro cfg s inb hf hp hn hb
  have haw : completeAwait s = true := by rw [completeAwait, hp]
  exact ⟨(enabled_complete_iff cfg s).2 ⟨hf, hn, haw⟩, perform_complete_xfer hp hb⟩

/-- Settles O13. -/
theorem txDrainMovesByteToShifter : Obligations.TxDrainMovesByteToShifter := fun cfg s =>
  ⟨enabled_txDrain_iff cfg s, fun _ _ hb _ => perform_txDrain hb⟩

/-- Settles O14. -/
theorem rxDoneReceivesAnyByte : Obligations.RxDoneReceivesAnyByte := fun cfg s inb =>
  ⟨enabled_rxDone_iff cfg s inb, fun _ ho => perform_rxDone inb ho⟩

/-- Settles O15: the await of ENV_STALL is that an exchange waits (`exchangeWaits_iff`), and its effect is none. -/
theorem stallChangesNothing : Obligations.StallChangesNothing := fun _ s => ⟨exchangeWaits_iff s, rfl⟩

end Sys2Proof.Machine
end

section
/-! The continuations of the Register Interface codec: COMPLETE in each phase of RDREG and WRREG, by its await and its effect. The
command phases send the next byte with `Start`; the data phases close the window and respond. -/

namespace Sys2Proof.Machine

/-- R94 and R116: the effect of COMPLETE in phase RD_CMD; no reply occurs in the next state. -/
theorem perform_complete_rdCmd {s : State} {inb : Byte} (hp : s.phase = .rdCmd) (hb : s.rxbuf = some inb) (ht : s.txe = true) :
    perform .complete s = .next (setPhase .rdData (loadByte Config.dummyByte (takeReply s))) := by
  have htake : (takeReply s).txe = true := (takeReply_txe s).trans ht
  rw [perform, complete, need_some _ hb, hp, completeRdCmd, startThen_free _ _ htake]

/-- R94 and R117: the effect of COMPLETE in phase RD_DATA. -/
theorem perform_complete_rdData {s : State} {inb : Byte} (hp : s.phase = .rdData) (hb : s.rxbuf = some inb) :
    perform .complete s = .next (respond .ok (some inb) (setPhase .idle (closeWindow (takeReply s)))) := by
  rw [perform, complete, need_some _ hb, hp, completeRdData]

/-- R94 and R119: the effect of COMPLETE in phase WR_CMD; the byte sent is the latched one, whatever the reply. -/
theorem perform_complete_wrCmd {s : State} {inb v : Byte} (hp : s.phase = .wrCmd) (hb : s.rxbuf = some inb) (ht : s.txe = true)
    (hv : s.wdata = some v) :
    perform .complete s = .next (setPhase .wrData (loadByte v { takeReply s with wdata := none })) := by
  have htake : { takeReply s with wdata := none }.txe = true := (takeReply_txe s).trans ht
  have hvtake : (takeReply s).wdata = some v := (takeReply_wdata s).trans hv
  rw [perform, complete, need_some _ hb, hp, completeWrCmd, need_some _ hvtake, startThen_free _ _ htake]

/-- R94 and R120: the effect of COMPLETE in phase WR_DATA; no reply occurs in the next state. -/
theorem perform_complete_wrData {s : State} {inb : Byte} (hp : s.phase = .wrData) (hb : s.rxbuf = some inb) :
    perform .complete s = .next (respond .ok none (setPhase .idle (closeWindow (takeReply s)))) := by
  rw [perform, complete, need_some _ hb, hp, completeWrData]

/-- Settles O8: in phase RD_CMD, COMPLETE awaits the reply and a free transmit buffer, and its continuation starts the dummy byte. -/
theorem rdregCommandPhaseEnds : Obligations.RdregCommandPhaseEnds := by
  intro cfg s inb hf hp hn hb ht
  have haw : completeAwait s = true := by rw [completeAwait, hp, ht]
  exact ⟨(enabled_complete_iff cfg s).2 ⟨hf, hn, haw⟩, perform_complete_rdCmd hp hb ht⟩

/-- Settles O9: in phase RD_DATA, COMPLETE awaits the reply only, and its continuation responds with it. -/
theorem rdregDataPhaseEnds : Obligations.RdregDataPhaseEnds := by
  intro cfg s inb hf hp hn hb
  have haw : completeAwait s = true := by rw [completeAwait, hp]
  exact ⟨(enabled_complete_iff cfg s).2 ⟨hf, hn, haw⟩, perform_complete_rdData hp hb⟩

/-- Settles O11: in phase WR_CMD, COMPLETE awaits the reply and a free transmit buffer, and its continuation starts the latched value. -/
theorem wrregCommandPhaseEnds : Obligations.WrregCommandPhaseEnds := by
  intro cfg s inb v hf hp hn hb ht hv
  have haw : completeAwait s = true := by rw [completeAwait, hp, ht]
  exact ⟨(enabled_complete_iff cfg s).2 ⟨hf, hn, haw⟩, perform_complete_wrCmd hp hb ht hv⟩

/-- Settles O12: in phase WR_DATA, COMPLETE awaits the reply only, and its continuation responds without data. -/
theorem wrregDataPhaseEnds : Obligations.WrregDataPhaseEnds := by
  intro cfg s inb hf hp hn hb
  have haw : completeAwait s = true := by rw [completeAwait, hp]
  exact ⟨(enabled_complete_iff cfg s).2 ⟨hf, hn, haw⟩, perform_complete_wrData hp hb⟩

end Sys2Proof.Machine
end

section
/-! Exceptions: what each check of ACCEPT does when it fails (R144), which steps can take a fault (R137), and the timeout of the
exchange in progress (R141, R142). -/

namespace Sys2Proof.Machine

/-- A legal request word is the encoding of its request, so a fault record built from the request holds the word accepted. -/
theorem encode_of_decodeRequest {w : Word24} {i : Instr} (h : decodeRequest w = .ok i) : encode i = .hreq w := by
  obtain ⟨rfl, rfl⟩ | ⟨rfl, rfl⟩ | ⟨d, rfl, rfl⟩ | ⟨a, rfl, rfl⟩ | ⟨a, d, rfl, rfl⟩ := decodeRequest_cases h <;> rfl

/-- R90: a word that decodes is executed. -/
theorem acceptWord_of_ok {w : Word24} {i : Instr} (s : State) (h : decodeRequest w = .ok i) : acceptWord w s = exec i s := by
  rw [acceptWord, h]

/-- R90 and R136: a word that decodes to no request. -/
theorem acceptWord_of_error {s : State} {w : Word24} {r : Reject} (hr : Ready s) (h : decodeRequest w = .error r) :
    acceptWord w s = .next (raiseFault .illegalRequest w s) := by
  rw [acceptWord, h]
  exact whenReady_ready _ hr.1 hr.2

/-- R98, the window closed. -/
theorem exec_xfer_deselected {s : State} (d : Byte) (hr : Ready s) (hc : s.csN = 1) :
    exec (.xfer d) s = .next (raiseFault .xferOutsideWindow (hreqWord 0x3 0 d) s) := by
  rw [exec, execXfer, whenReady_ready _ hr.1 hr.2, if_pos hc]

/-- R115, the window open: the address is not looked at. -/
theorem exec_rdreg_selected {s : State} (a8 : Addr8) (hr : Ready s) (hc : s.csN = 0) :
    exec (.rdreg a8) s = .next (raiseFault .regOpInsideWindow (hreqWord 0x4 a8 0) s) := by
  rw [exec, execRdreg, whenReady_ready _ hr.1 hr.2, if_pos hc]

/-- R118, the window open: the address is not looked at. -/
theorem exec_wrreg_selected {s : State} (a8 : Addr8) (d : Byte) (hr : Ready s) (hc : s.csN = 0) :
    exec (.wrreg a8 d) s = .next (raiseFault .regOpInsideWindow (hreqWord 0x5 a8 d) s) := by
  rw [exec, execWrreg, whenReady_ready _ hr.1 hr.2, if_pos hc]

/-- R75: the addresses that need more than 7 bits. -/
theorem addrOutOfRange_iff (a8 : Addr8) : addrOutOfRange a8 = true ↔ 128 ≤ a8.toNat := decide_eq_true_iff

/-- R124 for RDREG: the window closed, the address out of range. -/
theorem exec_rdreg_outOfRange {s : State} {a8 : Addr8} (hr : Ready s) (hc : s.csN = 1) (ha : 128 ≤ a8.toNat) :
    exec (.rdreg a8) s = .next (respond .invalidAddress none s) := by
  have hne : s.csN ≠ 0 := by rw [hc]; decide
  rw [exec, execRdreg, whenReady_ready _ hr.1 hr.2, if_neg hne, if_pos ((addrOutOfRange_iff a8).2 ha)]

/-- R124 for WRREG: the window closed, the address out of range. -/
theorem exec_wrreg_outOfRange {s : State} {a8 : Addr8} (d : Byte) (hr : Ready s) (hc : s.csN = 1) (ha : 128 ≤ a8.toNat) :
    exec (.wrreg a8 d) s = .next (respond .invalidAddress none s) := by
  have hne : s.csN ≠ 0 := by rw [hc]; decide
  rw [exec, execWrreg, whenReady_ready _ hr.1 hr.2, if_neg hne, if_pos ((addrOutOfRange_iff a8).2 ha)]

/-- A decoded request whose meaning records its own encoding records the word accepted. -/
theorem acceptWord_of_exec_raiseFault {s : State} {w w' : Word24} {i : Instr} {c : FaultCause} (hd : decodeRequest w = .ok i)
    (hw : encode i = .hreq w') (h : exec i s = .next (raiseFault c w' s)) : acceptWord w s = .next (raiseFault c w s) := by
  obtain rfl : w' = w := Code.hreq.inj (hw.symm.trans (encode_of_decodeRequest hd))
  exact (acceptWord_of_ok s hd).trans h

/-- Settles O18: each check by the rule of the request that fails it; the word recorded is the one accepted. -/
theorem acceptChecksInOrder : Obligations.AcceptChecksInOrder := by
  intro s w hr
  refine ⟨fun r hd => acceptWord_of_error hr hd,
    fun hd hc => acceptWord_of_exec_raiseFault hd rfl (exec_sel_selected hr hc),
    fun hd hc => acceptWord_of_exec_raiseFault hd rfl (exec_desel_deselected hr hc),
    fun d hd hc => acceptWord_of_exec_raiseFault hd rfl (exec_xfer_deselected d hr hc), ?_⟩
  rintro a8 d (hd | hd)
  · exact ⟨fun hc => acceptWord_of_exec_raiseFault hd rfl (exec_rdreg_selected a8 hr hc),
      fun hc ha => (acceptWord_of_ok s hd).trans (exec_rdreg_outOfRange hr hc ha)⟩
  · exact ⟨fun hc => acceptWord_of_exec_raiseFault hd rfl (exec_wrreg_selected a8 d hr hc),
      fun hc ha => (acceptWord_of_ok s hd).trans (exec_wrreg_outOfRange d hr hc ha)⟩

/-- R137: a step keeps the fault record, or it is an ACCEPT that takes a fault and does nothing else but move HOST on. -/
theorem MoveRule.fault_cases {s t : State} {m : Move} (h : MoveRule s m t) :
    t.fault = s.fault ∨
    (m = .accept ∧ s.fault = none ∧ ∃ c w ws, s.reqs = w :: ws ∧ t = raiseFault c w (hostAdvance s)) := by
  cases h with
  | illegal w ws r hq hf hp hd => exact .inr ⟨rfl, hf, _, w, ws, hq, rfl⟩
  | breach c w ws i hq hf hp hd => exact .inr ⟨rfl, hf, c, w, ws, hq, rfl⟩
  | _ => exact .inl rfl

/-- Settles O29: the second case of `MoveRule.fault_cases`, with HOST's writes written out. -/
theorem faultEntryIsPrecise : Obligations.FaultEntryIsPrecise := by
  intro cfg m s t he h hne
  obtain hkeep | ⟨hm, hf, c, w, ws, hq, rfl⟩ := (move_of_enabled he h).fault_cases
  · exact absurd hkeep hne
  · refine ⟨hm, hf, c, w, ws, hq, ?_⟩
    rw [raiseFault, hostAdvance, hq, List.tail_cons]

/-- R141: the await of ENV_TIMEOUT. -/
theorem enabled_timeout_iff (cfg : Cfg) (s : State) :
    enabled cfg s .timeout = true ↔ cfg.timeoutMode = .hardened ∧ s.fault = none ∧ s.phase ≠ .idle ∧ s.rxne = false := by
  rw [enabled, Bool.and_eq_true, exchangeWaits_iff, decide_eq_true_iff, and_comm]

/-- R142 for XFER: the window is HOST's and stays as it is. -/
theorem perform_timeout_xfer {s : State} {o : Byte} (hx : s.phase = .xfer) (ho : s.xout = some o) :
    perform .timeout s = .next (respond .busTimeout none (setPhase .idle (abandonExchange o s))) := by
  rw [perform, timeoutEffect, need_some _ ho, hx, closeOwnWindow]

/-- R142 for a register transaction: the block closes its window after the exchange is abandoned. -/
theorem perform_timeout_register {s : State} {o : Byte} (hp : s.phase ≠ .idle) (hx : s.phase ≠ .xfer) (ho : s.xout = some o) :
    perform .timeout s = .next (respond .busTimeout none (setPhase .idle (closeWindow (abandonExchange o s)))) := by
  obtain ⟨hidle | hxfer, -⟩ | ⟨-, hw⟩ := closeOwnWindow_cases s.phase (abandonExchange o s)
  · exact absurd hidle hp
  · exact absurd hxfer hx
  · rw [perform, timeoutEffect, need_some _ ho, hw]

/-- R93: with nothing on the shifter no reply can be delivered. -/
theorem enabled_rxDone_of_shifter_none {cfg : Cfg} {s : State} (inb : Byte) (h : s.shifter = none) :
    enabled cfg s (.rxDone inb) = false := by
  rw [enabled, h, Option.isSome_none]

/-- Settles O16: the effect of ENV_TIMEOUT by whose window is open; the shifter is empty after it. -/
theorem timeoutAbandonsTheExchange : Obligations.TimeoutAbandonsTheExchange := by
  intro cfg s o hm hf hp hn ho
  refine ⟨(enabled_timeout_iff cfg s).2 ⟨hm, hf, hp, hn⟩, ?_⟩
  by_cases hx : s.phase = .xfer
  · refine ⟨_, perform_timeout_xfer hx ho, ?_, fun inb => enabled_rxDone_of_shifter_none inb rfl⟩
    rw [if_pos hx, if_pos hx]
    rfl
  · refine ⟨_, perform_timeout_register hp hx ho, ?_, fun inb => enabled_rxDone_of_shifter_none inb rfl⟩
    have htrace : s.trace ++ [.xchgAbort o, .csDeassert] = s.trace ++ [.xchgAbort o] ++ [.csDeassert] :=
      List.append_cons s.trace _ _
    rw [if_neg hx, if_neg hx, htrace]
    rfl

end Sys2Proof.Machine
end

section
/-! The ports of R35 by the fields they read, and their values at reset (R165). -/

namespace Sys2Proof.Machine

/-- R35: the block takes a request when it is idle and not faulted. -/
theorem reqReady_iff_ready (s : State) : reqReady s = true ↔ Ready s := by
  rw [reqReady, decide_eq_true_iff, and_comm, Ready]

/-- R26: the block is not busy exactly in phase IDLE. -/
theorem busy_eq_false_iff (s : State) : busy s = false ↔ s.phase = .idle := by
  rw [busy, decide_eq_false_iff_not, not_not]

/-- R35: with no fault recorded the port `fault_code` reads 0. -/
theorem faultCode_of_fault_none {s : State} (hf : s.fault = none) : faultCode s = 0 := by
  rw [faultCode, hf]

theorem ready_reset : Ready State.reset := ⟨rfl, rfl⟩

/-- Settles O1: the fields by the definition of `State.reset`; the ports by what they say of a ready block. -/
theorem resetLeavesTheSpecsValues : Obligations.ResetLeavesTheSpecsValues := by
  obtain ⟨hfault, hphase⟩ := ready_reset
  have hports : reqReady State.reset = true ∧ busy State.reset = false ∧ faultCode State.reset = 0 ∧ csPin State.reset = 1 :=
    ⟨(reqReady_iff_ready _).2 ready_reset, (busy_eq_false_iff _).2 hphase, faultCode_of_fault_none hfault, rfl⟩
  exact ⟨rfl, hphase, rfl, rfl, rfl, rfl, rfl, rfl, rfl, hfault, rfl, rfl, hports⟩

end Sys2Proof.Machine
end

section
/-! The encodings both ways: request words by their fields (R71 to R74, R80), wire bytes by theirs (R77, R78), and the two decoders
joined (R82). -/

namespace Sys2Proof.Machine

/-- R73 and R74, read back: a request's word decodes to the request. -/
theorem decodeRequest_of_encode {w : Word24} {i : Instr} (h : encode i = .hreq w) : decodeRequest w = .ok i := by
  cases i with
  | wcmdRead a => cases h
  | wcmdWrite a => cases h
  | wcmdWriteHi a => cases h
  | _ => cases h; simp [decodeRequest, whenZero]

/-- R77: a wire byte with bit 0 clear is the byte of its fields. -/
theorem wcmdByte_of_fields {b : Byte} (h : wireBit0 b = 0) : wcmdByte (wireRw b) (wireAddr b) = b := by
  revert b; decide

/-- R77, R78, R126: a wire byte and its intent are the encoding of the command they decode to. -/
theorem encode_of_decodeCommand {rw : Bit} {b : Byte} {i : Instr} (h : decodeCommand rw b = .ok i) :
    encode i = .wcmd rw b := by
  unfold decodeCommand at h
  split at h
  next => cases h
  next h0 =>
    have hb := wcmdByte_of_fields (not_not.mp h0)
    split at h
    next hread =>
      split at h
      next h7 => cases h; rw [encode, ← h7, hb, hread]
      next => cases h
    next hread =>
      have hwrite : Config.rwWrite = rw := (csN_eq_zero hread).symm
      split at h
      next h7 => cases h; rw [encode, ← h7, hb, hwrite]
      next h7 => cases h; rw [encode, ← csN_eq_one h7, hb, hwrite]

/-- R77, R78, R126, read back: a command's byte, with its intent, decodes to the command. -/
theorem decodeCommand_of_encode {rw : Bit} {b : Byte} {i : Instr} (h : encode i = .wcmd rw b) :
    decodeCommand rw b = .ok i := by
  cases i with
  | wcmdRead a => cases h; simp [decodeCommand]
  | wcmdWrite a => cases h; simp [decodeCommand, Config.rwWrite, Config.rwRead]
  | wcmdWriteHi a => cases h; simp [decodeCommand, Config.rwWrite, Config.rwRead]
  | _ => cases h

/-- Settles O25: by the kind of the code; each decoder is inverse to `encode` on its own kind. -/
theorem decodeAndEncodeAgree : Obligations.DecodeAndEncodeAgree := by
  intro c i
  cases c with
  | hreq w => exact ⟨encode_of_decodeRequest, decodeRequest_of_encode⟩
  | wcmd rw b => exact ⟨encode_of_decodeCommand, decodeCommand_of_encode⟩

/-- A field that a mask covers whole is read through the mask. -/
theorem extractLsb'_of_and_eq {w mask v : Word24} (lo len : Nat) (hm : mask.extractLsb' lo len = BitVec.allOnes len)
    (h : w &&& mask = v) : w.extractLsb' lo len = v.extractLsb' lo len := by
  rw [← h, BitVec.extractLsb'_and, hm, BitVec.and_allOnes]

/-- R73: a word with the fields of a row of the opcode table is legal. -/
theorem legal_of_fields {w : Word24} {op : BitVec 4} (hr : rsvField w = 0) (ho : opField w = op)
    (hop : (op = 3 ∧ addrField w = 0) ∨ (op = 4 ∧ dataField w = 0) ∨ op = 5) : ∃ i, decodeRequest w = .ok i := by
  rw [← hreqWord_of_fields hr, ho]
  obtain ⟨rfl, hz⟩ | ⟨rfl, hz⟩ | rfl := hop
  · exact ⟨_, decodeRequest_of_encode (i := .xfer (dataField w)) (by rw [encode, hz])⟩
  · exact ⟨_, decodeRequest_of_encode (i := .rdreg (addrField w)) (by rw [encode, hz])⟩
  · exact ⟨_, decodeRequest_of_encode (i := .wrreg (addrField w) (dataField w)) rfl⟩

/-- Settles O26: a legal word is its request's encoding, whose bits under its row's mask are the row's (`TableRow`); and those bits fix
the fields that make a word legal. -/
theorem legalWordsAreTheTableRows : Obligations.LegalWordsAreTheTableRows := by
  intro w
  constructor
  · rintro ⟨i, h⟩
    obtain ⟨-, rfl⟩ | ⟨-, rfl⟩ | ⟨d, -, rfl⟩ | ⟨a, -, rfl⟩ | ⟨a, d, -, rfl⟩ := decodeRequest_cases h
    · exact .inl (by decide)
    · exact .inr (.inl (by decide))
    · exact .inr (.inr (.inl (Code.hreq.inj (Laws.TableRow.xfer d))))
    · exact .inr (.inr (.inr (.inl (Code.hreq.inj (Laws.TableRow.rdreg a)))))
    · exact .inr (.inr (.inr (.inr (Code.hreq.inj (Laws.TableRow.wrreg a d)))))
  · rintro (rfl | rfl | h | h | h)
    · exact ⟨.sel, by decide⟩
    · exact ⟨.desel, by decide⟩
    · exact legal_of_fields (extractLsb'_of_and_eq 16 4 (by decide) h) (extractLsb'_of_and_eq 20 4 (by decide) h)
        (.inl ⟨by decide, extractLsb'_of_and_eq 8 8 (by decide) h⟩)
    · exact legal_of_fields (extractLsb'_of_and_eq 16 4 (by decide) h) (extractLsb'_of_and_eq 20 4 (by decide) h)
        (.inr (.inl ⟨by decide, extractLsb'_of_and_eq 0 8 (by decide) h⟩))
    · exact legal_of_fields (extractLsb'_of_and_eq 16 4 (by decide) h) (extractLsb'_of_and_eq 20 4 (by decide) h)
        (.inr (.inr (by decide)))

/-- Settles O24: the decoders run on the words. -/
theorem specWordsDecode : Obligations.SpecWordsDecode := by
  refine ⟨?_, ?_, ?_, ?_, ?_, ?_, ?_, ?_, ?_, ?_⟩ <;> decide

/-- The two parts of an address: bits 5:0 and bit 6. -/
theorem addrOfParts_low (hi : Bit) (a : BitVec 6) : (addrOfParts hi a).extractLsb' 0 6 = a :=
  BitVec.extractLsb'_append_eq_right

theorem addrOfParts_bit6 (hi : Bit) (a : BitVec 6) : (addrOfParts hi a).extractLsb' 6 1 = hi :=
  BitVec.extractLsb'_append_eq_left

/-- R78: the command byte of an address put together from its parts. -/
theorem cmd_addrOfParts (rw hi : Bit) (a : BitVec 6) : cmd rw (addrOfParts hi a) = wcmdByte (rw ||| hi) a := by
  rw [cmd_eq_wcmdByte, addrOfParts_low, addrOfParts_bit6]

/-- A read's command byte has bit 7 set, whatever bit 6 of the address. -/
theorem one_or_bit (b : Bit) : 1 ||| b = 1 := by
  revert b; decide

/-- Bit 6 of an address is 1 for the addresses 64 to 127. -/
theorem addr_bit6_eq_one {a : Addr7} (h : 64 ≤ a.toNat) : a.extractLsb' 6 1 = 1 :=
  csN_eq_one fun h0 => absurd ((addr_bit6_eq_zero_iff a).1 h0) (by omega)

/-- R78: a read's command byte shows bits 5:0 of its address only. -/
theorem cmd_read (a : Addr7) : cmd 1 a = wcmdByte 1 (a.extractLsb' 0 6) := by
  rw [cmd_eq_wcmdByte, one_or_bit]

/-- R126: so does a write's command byte, with bit 7 set, for the addresses 64 to 127. -/
theorem cmd_write_high {a : Addr7} (h : 64 ≤ a.toNat) : cmd 0 a = wcmdByte 1 (a.extractLsb' 0 6) := by
  rw [cmd_eq_wcmdByte, addr_bit6_eq_one h]; rfl

/-- R78: a write's command byte for the addresses 0 to 63. -/
theorem cmd_write_low {a : Addr7} (h : a.toNat < 64) : cmd 0 a = wcmdByte 0 (a.extractLsb' 0 6) := by
  rw [cmd_eq_wcmdByte, (addr_bit6_eq_zero_iff a).2 h]; rfl

/-- Bits 5:0 of an address, as R126 and the opcode table name them. -/
theorem addr_low (a : Addr7) : a.extractLsb' 0 6 = a.setWidth 6 :=
  BitVec.setWidth_eq_extractLsb' (by decide) |>.symm

/-- 64 is in bit 6 alone. -/
theorem addr_low_sub_64 (a : Addr7) : (a - 64).extractLsb' 0 6 = a.extractLsb' 0 6 := by
  revert a; decide

/-- Settles O27: all the bytes are the wire byte `1AAAAAA0` of the low address bits. -/
theorem highAddressesCollideOnTheWire : Obligations.HighAddressesCollideOnTheWire := by
  rintro a lo s ha rfl
  have hread : cmd 1 a = wcmdByte 1 (a.setWidth 6) := by rw [cmd_read, addr_low]
  have hwrite : cmd 0 a = cmd 1 a := by rw [cmd_write_high ha, cmd_read]
  have hforms : cmd 0 (addrOfParts 1 (a.setWidth 6)) = cmd 1 (addrOfParts 0 (a.setWidth 6)) := by
    rw [cmd_addrOfParts, cmd_addrOfParts]; rfl
  refine ⟨?_, hwrite, ?_, ?_, ?_, ?_⟩
  · rw [cmd_read, cmd_read, addr_low_sub_64]
  · rw [hread]; rfl
  · rw [hread]; rfl
  · rw [hwrite, hread]; simp only [decodeWire, wireBit0_wcmdByte, wireRw_wcmdByte, wireAddr_wcmdByte]; rfl
  · show execWcmdWriteHi _ s = execWcmdRead _ s
    rw [execWcmdWriteHi, execWcmdRead, Config.rwWrite, Config.rwRead, hforms]

/-- Settles O28: the intent is bit 7, the address is bits 6:1 with bit 6 of it zero. -/
theorem lowAddressesAreUnambiguous : Obligations.LowAddressesAreUnambiguous := by
  intro rw rw' a a' ha ha' h
  have hrw : rw = rw' := by rw [← wireRw_cmd_of_lt (rw := rw) ha, h, wireRw_cmd_of_lt ha']
  have hlow : a.extractLsb' 0 6 = a'.extractLsb' 0 6 := by rw [← wireAddr_cmd rw a, h, wireAddr_cmd]
  have hmod : a.toNat % 2 ^ 6 = a'.toNat % 2 ^ 6 := by simpa using congrArg BitVec.toNat hlow
  exact ⟨hrw, BitVec.eq_of_toNat_eq (by omega)⟩

end Sys2Proof.Machine
end

section
/-! What each instruction does in a state that can take it, and what it leaves unchanged (R91, R98, R115, R118, R124); what every
instruction does in a state that cannot (R90, R138). -/

namespace Sys2Proof.Machine

/-- R83's words, as R73 spells them. -/
theorem hreqWord_xfer (d : Byte) : hreqWord 0x3 0 d = 0x300000#24 ||| d.setWidth 24 := by
  rw [hreqWord_eq_or]; rfl

theorem hreqWord_rdreg (a8 : Addr8) : hreqWord 0x4 a8 0 = 0x400000#24 ||| (a8.setWidth 24 <<< 8) := by
  rw [hreqWord_eq_or]; exact BitVec.or_zero

theorem hreqWord_wrreg (a8 : Addr8) (d : Byte) :
    hreqWord 0x5 a8 d = 0x500000#24 ||| (a8.setWidth 24 <<< 8) ||| d.setWidth 24 := by
  rw [hreqWord_eq_or]; rfl

theorem encode_xfer (d : Byte) : encode (.xfer d) = .hreq (0x300000#24 ||| d.setWidth 24) :=
  congrArg Code.hreq (hreqWord_xfer d)

theorem encode_rdreg (a8 : Addr8) : encode (.rdreg a8) = .hreq (0x400000#24 ||| (a8.setWidth 24 <<< 8)) :=
  congrArg Code.hreq (hreqWord_rdreg a8)

theorem encode_wrreg (a8 : Addr8) (d : Byte) :
    encode (.wrreg a8 d) = .hreq (0x500000#24 ||| (a8.setWidth 24 <<< 8) ||| d.setWidth 24) :=
  congrArg Code.hreq (hreqWord_wrreg a8 d)

/-- R75: an address in range keeps its value in 7 bits. -/
theorem regAddr_toNat {a8 : Addr8} (h : a8.toNat < 128) : (regAddr a8).toNat = a8.toNat := by
  rw [regAddr, BitVec.toNat_setWidth]; omega

/-- R78 for an address in range. -/
theorem cmd_regAddr (rw : Bit) {a8 : Addr8} (h : a8.toNat < 128) :
    cmd rw (regAddr a8) = BitVec.ofNat 8 ((rw.toNat <<< 7) ||| (a8.toNat <<< 1)) := by
  rw [cmd, trunc8, regAddr_toNat h]

/-- Bits 5:0 of a register address are those of the address field. -/
theorem regAddr_low (a8 : Addr8) : (regAddr a8).extractLsb' 0 6 = a8.setWidth 6 := by
  rw [addr_low]; exact BitVec.setWidth_setWidth_of_le a8 (by decide)

/-- R75: an address below 128 is in range. -/
theorem addrOutOfRange_eq_false {a8 : Addr8} (h : a8.toNat < 128) : addrOutOfRange a8 = false :=
  decide_eq_false (by omega)

/-- R98, the window open. -/
theorem exec_xfer_selected {s : State} (d : Byte) (hr : Ready s) (hc : s.csN = 0) (ht : s.txe = true) :
    exec (.xfer d) s = .next (setPhase .xfer (loadByte d s)) := by
  have hne : s.csN ≠ 1 := by rw [hc]; decide
  rw [exec, execXfer, whenReady_ready _ hr.1 hr.2, if_neg hne, startThen_free _ _ ht]

/-- R115, the window closed and the address in range. -/
theorem exec_rdreg_deselected {s : State} {a8 : Addr8} (hr : Ready s) (hc : s.csN = 1) (ha : a8.toNat < 128)
    (ht : s.txe = true) :
    exec (.rdreg a8) s = .next (setPhase .rdCmd (loadByte (cmd Config.rwRead (regAddr a8)) (openWindow s))) := by
  have hne : s.csN ≠ 0 := by rw [hc]; decide
  have hin : ¬ addrOutOfRange a8 = true := by rw [addrOutOfRange_eq_false ha]; decide
  rw [exec, execRdreg, whenReady_ready _ hr.1 hr.2, if_neg hne, if_neg hin, startThen_free _ _ ((openWindow_txe s).trans ht)]

/-- R118, the window closed and the address in range. -/
theorem exec_wrreg_deselected {s : State} {a8 : Addr8} (d : Byte) (hr : Ready s) (hc : s.csN = 1) (ha : a8.toNat < 128)
    (ht : s.txe = true) :
    exec (.wrreg a8 d) s =
      .next (setPhase .wrCmd (loadByte (cmd Config.rwWrite (regAddr a8)) (latchValue d (openWindow s)))) := by
  have hne : s.csN ≠ 0 := by rw [hc]; decide
  have hin : ¬ addrOutOfRange a8 = true := by rw [addrOutOfRange_eq_false ha]; decide
  have htx : (latchValue d (openWindow s)).txe = true := ht
  rw [exec, execWrreg, whenReady_ready _ hr.1 hr.2, if_neg hne, if_neg hin, startThen_free _ _ htx]

/-- R91: the wire command forms (log entry 9). -/
theorem exec_wcmdRead {s : State} (a : BitVec 6) (hr : Ready s) (ht : s.txe = true) :
    exec (.wcmdRead a) s = .next (loadByte (wcmdByte 1 a) s) := by
  rw [exec, execWcmdRead, whenReady_ready _ hr.1 hr.2, startThen_free _ _ ht, cmd_addrOfParts]; rfl

theorem exec_wcmdWrite {s : State} (a : BitVec 6) (hr : Ready s) (ht : s.txe = true) :
    exec (.wcmdWrite a) s = .next (loadByte (wcmdByte 0 a) s) := by
  rw [exec, execWcmdWrite, whenReady_ready _ hr.1 hr.2, startThen_free _ _ ht, cmd_addrOfParts]; rfl

theorem exec_wcmdWriteHi {s : State} (a : BitVec 6) (hr : Ready s) (ht : s.txe = true) :
    exec (.wcmdWriteHi a) s = .next (loadByte (wcmdByte 1 a) s) := by
  rw [exec, execWcmdWriteHi, whenReady_ready _ hr.1 hr.2, startThen_free _ _ ht, cmd_addrOfParts]; rfl

/-- Settles O5: XFER by the chip-select level; the recorded word is XFER's encoding. -/
theorem xferStartsAnExchange : Obligations.XferStartsAnExchange := by
  intro s d hr
  refine ⟨fun hc ht => exec_xfer_selected d hr hc ht, fun hc => ?_⟩
  rw [exec_xfer_deselected d hr hc, hreqWord_xfer, raiseFault]

/-- Settles O7: RDREG by the window and the address; the byte sent is R78's. -/
theorem rdregOpensAndSendsCommand : Obligations.RdregOpensAndSendsCommand := by
  intro s a8 hr
  refine ⟨fun hc ha ht => ?_, fun hc ha => exec_rdreg_outOfRange hr hc ha, fun hc => ?_⟩
  · rw [exec_rdreg_deselected hr hc ha ht, cmd_regAddr _ ha]; rfl
  · rw [exec_rdreg_selected a8 hr hc, hreqWord_rdreg, raiseFault]

/-- Settles O10: WRREG by the window and the address; the byte sent is R78's. -/
theorem wrregOpensAndSendsCommand : Obligations.WrregOpensAndSendsCommand := by
  intro s a8 d hr
  refine ⟨fun hc ha ht => ?_, fun hc ha => exec_wrreg_outOfRange d hr hc ha, fun hc => ?_⟩
  · rw [exec_wrreg_deselected d hr hc ha ht, cmd_regAddr _ ha]; rfl
  · rw [exec_wrreg_selected a8 d hr hc, hreqWord_wrreg, raiseFault]

/-- R77's byte as a shift of the address bits. -/
theorem wcmdByte_read_eq (a : BitVec 6) : wcmdByte 1 a = 0x80#8 ||| (a.setWidth 8 <<< 1) := by
  revert a; decide

theorem wcmdByte_write_eq (a : BitVec 6) : wcmdByte 0 a = a.setWidth 8 <<< 1 := by
  revert a; decide

/-- Settles O21: each form starts its wire byte. -/
theorem wireCommandsStartTheirByte : Obligations.WireCommandsStartTheirByte := by
  intro s a hr ht
  rw [exec_wcmdRead a hr ht, exec_wcmdWrite a hr ht, exec_wcmdWriteHi a hr ht, ← wcmdByte_read_eq, ← wcmdByte_write_eq]
  exact ⟨rfl, rfl, rfl⟩

/-- R78: the wire command of a write, as WRREG sends it, is the one of its address range. -/
theorem exec_wcmd_of_write {s : State} {a8 : Addr8} (hr : Ready s) (ht : s.txe = true) (ha : a8.toNat < 128) :
    exec (if a8.toNat < 64 then .wcmdWrite (a8.setWidth 6) else .wcmdWriteHi (a8.setWidth 6)) s =
      .next (loadByte (cmd Config.rwWrite (regAddr a8)) s) := by
  have hn := regAddr_toNat ha
  rw [Config.rwWrite]
  split
  · rw [exec_wcmdWrite _ hr ht, cmd_write_low (by omega), regAddr_low]
  · rw [exec_wcmdWriteHi _ hr ht, cmd_write_high (by omega), regAddr_low]

/-- Settles O22: both sides load the same byte after opening the window. -/
theorem requestsRunTheirWireCommand : Obligations.RequestsRunTheirWireCommand := by
  intro s a8 d hr hc ha ht
  have hro : Ready (openWindow s) := hr
  have hto : (openWindow s).txe = true := ht
  refine ⟨⟨_, exec_wcmdRead _ hro hto, ?_⟩, ⟨_, exec_wcmd_of_write hro hto ha, ?_⟩⟩
  · rw [exec_rdreg_deselected hr hc ha ht, Config.rwRead, cmd_read, regAddr_low]; rfl
  · rw [exec_wrreg_deselected d hr hc ha ht]; rfl

/-- Every instruction's meaning stands under the await of ACCEPT (R90). -/
theorem exec_eq_whenReady (i : Instr) (s : State) : ∃ act, exec i s = whenReady s act := by
  cases i <;> exact ⟨_, rfl⟩

/-- R138: a faulted block runs no instruction. -/
theorem exec_faulted {s : State} {c : FaultCause} {w : Word24} (i : Instr) (hf : s.fault = some (c, w)) :
    exec i s = .fault (.blockFaulted c) := by
  obtain ⟨act, h⟩ := exec_eq_whenReady i s
  rw [h, whenReady_faulted act hf]

/-- R90: a busy block holds every instruction. -/
theorem exec_busy {s : State} (i : Instr) (hf : s.fault = none) (hp : s.phase ≠ .idle) : exec i s = .next s := by
  obtain ⟨act, h⟩ := exec_eq_whenReady i s
  rw [h, whenReady_busy act hf hp]

/-- R91: with the transmit buffer full, an instruction that calls `Start` is held. -/
theorem exec_held {s : State} {i : Instr} (hr : Ready s) (ht : s.txe = false) (hi : callsStart i s = true) :
    exec i s = .next s := by
  cases i with
  | sel => cases hi
  | desel => cases hi
  | xfer d =>
    have hc : s.csN ≠ 1 := of_decide_eq_true hi
    rw [exec, execXfer, whenReady_ready _ hr.1 hr.2, if_neg hc, startThen_held _ _ ht]
  | rdreg a8 =>
    obtain ⟨hc, ha⟩ := (Bool.and_eq_true _ _).mp hi
    have htx : (openWindow s).txe = false := ht
    rw [exec, execRdreg, whenReady_ready _ hr.1 hr.2, if_neg (of_decide_eq_true hc), if_neg (by simpa using ha),
      startThen_held _ _ htx]
  | wrreg a8 d =>
    obtain ⟨hc, ha⟩ := (Bool.and_eq_true _ _).mp hi
    have htx : (latchValue d (openWindow s)).txe = false := ht
    rw [exec, execWrreg, whenReady_ready _ hr.1 hr.2, if_neg (of_decide_eq_true hc), if_neg (by simpa using ha),
      startThen_held _ _ htx]
  | wcmdRead a => rw [exec, execWcmdRead, whenReady_ready _ hr.1 hr.2, startThen_held _ _ ht]
  | wcmdWrite a => rw [exec, execWcmdWrite, whenReady_ready _ hr.1 hr.2, startThen_held _ _ ht]
  | wcmdWriteHi a => rw [exec, execWcmdWriteHi, whenReady_ready _ hr.1 hr.2, startThen_held _ _ ht]

/-- R90: the await of ACCEPT. -/
theorem enabled_accept_iff (cfg : Cfg) (s : State) :
    enabled cfg s .accept = true ↔ Ready s ∧ ∃ w ws, s.reqs = w :: ws ∧ acceptAwait w s = true := by
  cases hq : s.reqs with
  | nil => simp [enabled, hq]
  | cons w ws => simp [enabled, hq]

/-- Settles O34: ACCEPT awaits a ready block, and the ports say that it is not ready. -/
theorem busyBlockTakesNoRequest : Obligations.BusyBlockTakesNoRequest := by
  intro cfg s hf hp
  have hnot : ¬ Ready s := fun hr => hp hr.2
  refine ⟨?_, ?_, ?_, fun i => exec_busy i hf hp⟩
  · exact Bool.eq_false_iff.mpr fun he => hnot ((enabled_accept_iff cfg s).mp he).1
  · exact Bool.eq_false_iff.mpr fun h => hnot ((reqReady_iff_ready s).mp h)
  · exact eq_true_of_ne_false fun h => hp ((busy_eq_false_iff s).mp h)

/-- Settles O35: the meaning is held, and so is the ACCEPT of its word. -/
theorem fullTransmitBufferHolds : Obligations.FullTransmitBufferHolds := by
  intro cfg s i w ws hr ht hi
  refine ⟨exec_held hr ht hi, fun hq hd => Bool.eq_false_iff.mpr fun he => ?_⟩
  obtain ⟨-, w', ws', hq', haw⟩ := (enabled_accept_iff cfg s).mp he
  obtain ⟨rfl, -⟩ := List.cons.inj (hq.symm.trans hq')
  simp [acceptAwait, hd, ht, hi] at haw

/-- The frame of SEL (R96). -/
theorem exec_sel_frame {s t : State} (h : exec .sel s = .next t) :
    { t with csN := s.csN, trace := s.trace, rspLog := s.rspLog, fault := s.fault } = s := by
  obtain ⟨-, ⟨-, h⟩ | ⟨-, rfl⟩⟩ := whenReady_next_cases h
  case inr => rfl
  split at h <;> cases h <;> rfl

/-- The frame of DESEL (R97). -/
theorem exec_desel_frame {s t : State} (h : exec .desel s = .next t) :
    { t with csN := s.csN, trace := s.trace, rspLog := s.rspLog, fault := s.fault } = s := by
  obtain ⟨-, ⟨-, h⟩ | ⟨-, rfl⟩⟩ := whenReady_next_cases h
  case inr => rfl
  split at h <;> cases h <;> rfl

/-- The frame of XFER (R98). -/
theorem exec_xfer_frame {s t : State} {d : Byte} (h : exec (.xfer d) s = .next t) :
    { t with txbuf := s.txbuf, txe := s.txe, xout := s.xout, phase := s.phase, fault := s.fault } = s := by
  obtain ⟨-, ⟨-, h⟩ | ⟨-, rfl⟩⟩ := whenReady_next_cases h
  case inr => rfl
  split at h
  · cases h; rfl
  · obtain ⟨-, rfl⟩ | ⟨-, rfl⟩ := startThen_next_cases h <;> rfl

/-- The frame of RDREG (R115). -/
theorem exec_rdreg_frame {s t : State} {a8 : Addr8} (h : exec (.rdreg a8) s = .next t) :
    { t with csN := s.csN, trace := s.trace, rspLog := s.rspLog, txbuf := s.txbuf, txe := s.txe, xout := s.xout,
             phase := s.phase, fault := s.fault } = s := by
  obtain ⟨-, ⟨-, h⟩ | ⟨-, rfl⟩⟩ := whenReady_next_cases h
  case inr => rfl
  split at h
  · cases h; rfl
  split at h
  · cases h; rfl
  · obtain ⟨-, rfl⟩ | ⟨-, rfl⟩ := startThen_next_cases h <;> rfl

/-- The frame of WRREG (R118). -/
theorem exec_wrreg_frame {s t : State} {a8 : Addr8} {d : Byte} (h : exec (.wrreg a8 d) s = .next t) :
    { t with csN := s.csN, trace := s.trace, rspLog := s.rspLog, txbuf := s.txbuf, txe := s.txe, xout := s.xout,
             phase := s.phase, fault := s.fault, wdata := s.wdata } = s := by
  obtain ⟨-, ⟨-, h⟩ | ⟨-, rfl⟩⟩ := whenReady_next_cases h
  case inr => rfl
  split at h
  · cases h; rfl
  split at h
  · cases h; rfl
  · obtain ⟨-, rfl⟩ | ⟨-, rfl⟩ := startThen_next_cases h <;> rfl

/-- The frame of `Start` alone, which is all that a wire command does (log entry 9). -/
theorem start_frame {s t : State} {out : Byte} (h : whenReady s (startThen s out id s) = .next t) :
    { t with txbuf := s.txbuf, txe := s.txe, xout := s.xout } = s := by
  obtain ⟨-, ⟨-, h⟩ | ⟨-, rfl⟩⟩ := whenReady_next_cases h
  case inr => rfl
  obtain ⟨-, rfl⟩ | ⟨-, rfl⟩ := startThen_next_cases h <;> rfl

/-- Settles O30: the frame of each instruction. -/
theorem instructionFrames : Obligations.InstructionFrames := by
  intro s t a8 d a
  refine ⟨?_, exec_xfer_frame, exec_rdreg_frame, exec_wrreg_frame, ?_⟩
  · rintro (h | h)
    · exact exec_sel_frame h
    · exact exec_desel_frame h
  · rintro (h | h | h) <;> exact start_frame h

end Sys2Proof.Machine
end

section
/-! What an agent may do, by the stage of the exchange (R37): at rest, its byte waiting in the transmit buffer, its byte on the shifter,
or its reply received. The stage is read off one field, and it settles which steps are enabled (R145). -/

namespace Sys2Proof

open Sys2Proof.Machine

/-- R37 with `phase = IDLE`: no trace of an exchange is left. -/
theorem StateInv.of_idle {s : State} (hi : StateInv s) (hp : s.phase = .idle) :
    s.xout = none ∧ s.txbuf = none ∧ s.shifter = none ∧ s.txe = true ∧ s.rxne = false ∧ s.wdata = none := by
  obtain ⟨-, hxout, hidle, -, -, -, hwdata, -⟩ := hi
  obtain ⟨hb, hs, ht, hn⟩ := hidle hp
  exact ⟨hxout.mp hp, hb, hs, ht, hn, by simpa [hp] using hwdata⟩

/-- R37 with `phase ≠ IDLE`: a window is open and no fault is recorded. -/
theorem StateInv.of_busy {s : State} (hi : StateInv s) (hp : s.phase ≠ .idle) :
    s.csN = 0 ∧ s.fault = none ∧ (s.wdata ≠ none ↔ s.phase = .wrCmd) := by
  obtain ⟨hcs, -, -, -, -, -, hwdata, hfault⟩ := hi
  exact ⟨hcs hp, by_contra fun h => hp (hfault h), hwdata⟩

/-- R37 with a byte in the transmit buffer: it is the byte of the exchange in progress, and no reply is in. -/
theorem StateInv.of_txbuf {s : State} {o : Byte} (hi : StateInv s) (hb : s.txbuf = some o) :
    s.phase ≠ .idle ∧ s.xout = some o ∧ s.shifter = none ∧ s.txe = false ∧ s.rxne = false := by
  obtain ⟨-, -, hidle, hwait, hreply, htxe, -, -⟩ := hi
  have hp : s.phase ≠ .idle := fun hp => by
    obtain ⟨hb', -⟩ := hidle hp
    simp [hb] at hb'
  have hn : s.rxne = false := Bool.eq_false_iff.mpr fun hn => by
    obtain ⟨hb', -⟩ := hreply hn
    simp [hb] at hb'
  obtain ⟨-, ⟨hx, hs⟩ | ⟨hb', -⟩⟩ := hwait hp hn
  · exact ⟨hp, hx ▸ hb, hs, htxe.mpr (by simp [hb]), hn⟩
  · simp [hb] at hb'

/-- R37 with a byte on the shifter: likewise. -/
theorem StateInv.of_shifter {s : State} {o : Byte} (hi : StateInv s) (hs : s.shifter = some o) :
    s.phase ≠ .idle ∧ s.xout = some o ∧ s.txbuf = none ∧ s.txe = true ∧ s.rxne = false := by
  obtain ⟨-, -, hidle, hwait, hreply, htxe, -, -⟩ := hi
  have hp : s.phase ≠ .idle := fun hp => by
    obtain ⟨-, hs', -⟩ := hidle hp
    simp [hs] at hs'
  have hn : s.rxne = false := Bool.eq_false_iff.mpr fun hn => by
    obtain ⟨-, hs', -⟩ := hreply hn
    simp [hs] at hs'
  obtain ⟨-, ⟨-, hs'⟩ | ⟨hb, hx⟩⟩ := hwait hp hn
  · simp [hs] at hs'
  · exact ⟨hp, hx ▸ hs, hb, by simpa [hb] using htxe, hn⟩

/-- R37 with a reply received: both buffers of the way out are empty. -/
theorem StateInv.of_rxne {s : State} (hi : StateInv s) (hn : s.rxne = true) :
    s.phase ≠ .idle ∧ s.txbuf = none ∧ s.shifter = none ∧ s.txe = true ∧ ∃ inb, s.rxbuf = some inb := by
  obtain ⟨-, -, hidle, -, hreply, htxe, -, -⟩ := hi
  obtain ⟨hb, hs, hr⟩ := hreply hn
  have hp : s.phase ≠ .idle := fun hp => by
    obtain ⟨-, -, -, hn'⟩ := hidle hp
    simp [hn] at hn'
  exact ⟨hp, hb, hs, by simpa [hb] using htxe, Option.ne_none_iff_exists'.mp hr⟩

/-- R37 with `phase ≠ IDLE` and no reply: the byte of the exchange is in one of the two places. -/
theorem StateInv.of_waiting {s : State} (hi : StateInv s) (hp : s.phase ≠ .idle) (hn : s.rxne = false) :
    ∃ o, s.xout = some o ∧ (s.txbuf = some o ∨ s.shifter = some o) := by
  obtain ⟨-, -, -, hwait, -, -, -, -⟩ := hi
  obtain ⟨hx, hplace⟩ := hwait hp hn
  obtain ⟨o, ho⟩ := Option.ne_none_iff_exists'.mp hx
  refine ⟨o, ho, ?_⟩
  obtain ⟨hb, -⟩ | ⟨-, hs⟩ := hplace
  · exact .inl (hb.trans ho)
  · exact .inr (hs.trans ho)

end Sys2Proof

namespace Sys2Proof.Machine

/-- R90 and R145: an idle block waits for HOST only, and takes its next request unless it is faulted. -/
theorem enabled_idle_iff {cfg : Cfg} {s : State} {m : Move} (hi : StateInv s) (hp : s.phase = .idle) :
    enabled cfg s m = true ↔ m = .accept ∧ s.fault = none ∧ s.reqs ≠ [] := by
  obtain ⟨-, hb, hs, ht, hn, -⟩ := hi.of_idle hp
  cases m with
  | accept =>
    have haw (w : Word24) : acceptAwait w s = true := by
      rw [acceptAwait]; split <;> simp [ht]
    rw [enabled_accept_iff]
    cases hq : s.reqs <;> simp [haw, hp]
  | complete => simp [enabled_complete_iff, hn]
  | txDrain => simp [enabled_txDrain_iff, ht]
  | rxDone inb => simp [enabled_rxDone_iff, hs]
  | stall => simp [enabled, exchangeWaits_iff, hp]
  | timeout => simp [enabled_timeout_iff, hp]

/-- R90: ACCEPT needs an idle block. -/
theorem enabled_accept_of_busy {s : State} (cfg : Cfg) (hp : s.phase ≠ .idle) : enabled cfg s .accept = false :=
  Bool.eq_false_iff.mpr fun he => hp ((enabled_accept_iff cfg s).mp he).1.2

/-- R103: the await of ENV_STALL. -/
theorem enabled_stall_iff (cfg : Cfg) (s : State) :
    enabled cfg s .stall = true ↔ s.fault = none ∧ s.phase ≠ .idle ∧ s.rxne = false :=
  exchangeWaits_iff s

/-- R91 inside COMPLETE: with the transmit buffer free, no phase holds it. -/
theorem completeAwait_of_txe {s : State} (hp : s.phase ≠ .idle) (ht : s.txe = true) : completeAwait s = true := by
  rw [completeAwait]
  cases h : s.phase with
  | idle => exact absurd h hp
  | _ => simp [ht]

/-- R145: with the reply in, COMPLETE is the only enabled step. -/
theorem enabled_replied_iff {cfg : Cfg} {s : State} {m : Move} (hi : StateInv s) (hn : s.rxne = true) :
    enabled cfg s m = true ↔ m = .complete := by
  obtain ⟨hp, hb, hs, ht, -⟩ := hi.of_rxne hn
  obtain ⟨-, hf, -⟩ := hi.of_busy hp
  cases m with
  | accept => simp [enabled_accept_of_busy cfg hp]
  | complete =>
    simp [enabled_complete_iff, hf, hn, completeAwait_of_txe hp ht]
  | txDrain => simp [enabled_txDrain_iff, ht]
  | rxDone inb => simp [enabled_rxDone_iff, hs]
  | stall => simp [enabled_stall_iff, hn]
  | timeout => simp [enabled_timeout_iff, hn]

/-- R37 and R145: while an exchange waits, the device can move its byte, one way or the other. -/
theorem enabled_txDrain_eq_not_rxDone {s : State} (cfg : Cfg) (inb : Byte) (hi : StateInv s) (hp : s.phase ≠ .idle)
    (hn : s.rxne = false) : enabled cfg s .txDrain = !enabled cfg s (.rxDone inb) := by
  obtain ⟨o, -, hb | hs⟩ := hi.of_waiting hp hn
  · obtain ⟨-, -, hs, ht, -⟩ := hi.of_txbuf hb
    simp [enabled, hb, hs, ht]
  · obtain ⟨-, -, hb, ht, -⟩ := hi.of_shifter hs
    simp [enabled, hb, hs]

/-- Settles O36: by whether the reply is in. -/
theorem enabledStepsWhileBusy : Obligations.EnabledStepsWhileBusy := by
  intro cfg s hi hp
  obtain ⟨-, hf, -⟩ := hi.of_busy hp
  refine ⟨fun hn m => enabled_replied_iff hi hn, fun hn => ⟨enabled_accept_of_busy cfg hp, ?_, ?_, ?_, ?_⟩⟩
  · exact Bool.eq_false_iff.mpr fun he => absurd hn (by simp [((enabled_complete_iff cfg s).mp he).2.1])
  · exact (enabled_stall_iff cfg s).mpr ⟨hf, hp, hn⟩
  · rw [enabled_timeout_iff]
    exact ⟨fun h => h.1, fun h => ⟨h, hf, hp, hn⟩⟩
  · exact fun inb => enabled_txDrain_eq_not_rxDone cfg inb hi hp hn

/-- Settles O17. -/
theorem timeoutNeedsHardenedMode : Obligations.TimeoutNeedsHardenedMode := enabled_timeout_iff

/-- R138 and R168: an idle block with a fault, or with no request, has no step. -/
theorem no_step_of_idle {cfg : Cfg} {s : State} (hi : StateInv s) (hp : s.phase = .idle) (h : s.fault ≠ none ∨ s.reqs = [])
    (m : Move) : enabled cfg s m = false := by
  refine Bool.eq_false_iff.mpr fun he => ?_
  obtain ⟨-, hf, hq⟩ := (enabled_idle_iff hi hp).mp he
  exact h.elim (absurd hf) (absurd · hq)

/-- A busy block always has a step (R145). -/
theorem exists_step_of_busy {s : State} (cfg : Cfg) (hi : StateInv s) (hp : s.phase ≠ .idle) :
    ∃ m, enabled cfg s m = true := by
  obtain ⟨-, hf, -⟩ := hi.of_busy hp
  cases hn : s.rxne with
  | true => exact ⟨_, (enabled_replied_iff hi hn).mpr rfl⟩
  | false => exact ⟨_, (enabled_stall_iff cfg s).mpr ⟨hf, hp, hn⟩⟩

/-- R171: when no agent has a step. -/
theorem no_step_iff {s : State} (cfg : Cfg) (hi : StateInv s) :
    (∀ m, enabled cfg s m = false) ↔ s.fault ≠ none ∨ (s.phase = .idle ∧ s.reqs = []) := by
  obtain ⟨-, -, -, -, -, -, -, hfault⟩ := id hi
  constructor
  · intro hno
    have hp : s.phase = .idle := by
      by_contra hp
      obtain ⟨m, he⟩ := exists_step_of_busy cfg hi hp
      simp [hno] at he
    by_contra h
    obtain ⟨hf, hq⟩ := not_or.mp h
    have he := (enabled_idle_iff (cfg := cfg) hi hp).mpr ⟨rfl, not_not.mp hf, fun hnil => hq ⟨hp, hnil⟩⟩
    simp [hno] at he
  · rintro (hf | ⟨hp, hq⟩)
    · exact no_step_of_idle hi (hfault hf) (.inl hf)
    · exact no_step_of_idle hi hp (.inr hq)

/-- HOST is at the end of its program exactly when it has no request left. -/
theorem hpc_eq_programLength_iff (s : State) : s.hpc = programLength s ↔ s.reqs = [] := by
  rw [programLength, ← List.length_eq_zero_iff]; omega

/-- Settles O58: `no_step_iff`; with no fault, its right side says that the block is idle and HOST done. -/
theorem runEndsWhenFaultedOrDone : Obligations.RunEndsWhenFaultedOrDone := by
  intro cfg s hi
  refine ⟨no_step_iff cfg hi, ?_⟩
  rw [no_step_iff cfg hi, EndedWell, hpc_eq_programLength_iff]
  constructor
  · rintro ⟨hq, hp, hf, hc⟩
    exact ⟨.inr ⟨hp, hq⟩, hf, hc⟩
  · rintro ⟨hf' | ⟨hp, hq⟩, hf, hc⟩
    · exact absurd hf hf'
    · exact ⟨hq, hp, hf, hc⟩

/-- With no step enabled, `step` does what the model says then. -/
theorem step_of_no_step {s : State} (h : ∀ cfg m, enabled cfg s m = false) : step s = noStep s := by
  obtain ⟨m, he, -⟩ | ⟨-, hstep⟩ := nextStep_cases Config.cfg (Config.pick s.draws) (Config.reply s.draws) s
  · simp [h] at he
  · exact hstep

/-- R35: the port of a faulted block. -/
theorem faultCode_of_fault {s : State} {c : FaultCause} {w : Word24} (hf : s.fault = some (c, w)) :
    faultCode s = faultCauseCode c := by
  rw [faultCode, hf]

/-- Settles O33: no step is enabled, and `step` and `exec` stop. -/
theorem faultedBlockStops : Obligations.FaultedBlockStops := by
  intro s c w hi hf
  have hne : s.fault ≠ none := by simp [hf]
  have hno (cfg m) : enabled cfg s m = false := (no_step_iff cfg hi).mpr (.inl hne) m
  refine ⟨hno, ?_, fun i => exec_faulted i hf, faultCode_of_fault hf, ?_, rfl⟩
  · rw [step_of_no_step hno, noStep, hf]
  · exact Bool.eq_false_iff.mpr fun h => hne ((reqReady_iff_ready s).mp h).1

/-- Settles O37: no step is enabled, and `step` waits. -/
theorem idleMachineWaits : Obligations.IdleMachineWaits := by
  intro s hi hr hq
  have hno (cfg m) : enabled cfg s m = false := no_step_of_idle hi hr.2 (.inr hq) m
  refine ⟨hno, ?_⟩
  rw [step_of_no_step hno, noStep, hr.1]

/-- With a request at hand, ACCEPT is the only step of a ready block. -/
theorem enabledMoves_ready {s : State} (cfg : Cfg) (inb : Byte) (hi : StateInv s) (hr : Ready s) (hq : s.reqs ≠ []) :
    enabledMoves cfg inb s = [.accept] := by
  have hacc : enabled cfg s .accept = true := (enabled_idle_iff hi hr.2).mpr ⟨rfl, hr.1, hq⟩
  have hno {m : Move} (hm : m ≠ .accept) : enabled cfg s m = false :=
    Bool.eq_false_iff.mpr fun he => hm ((enabled_idle_iff hi hr.2).mp he).1
  simp [enabledMoves, hacc, hno]

/-- R90: the step of a ready block accepts HOST's next word. -/
theorem step_of_ready {s : State} {w : Word24} {ws : List Word24} (hi : StateInv s) (hr : Ready s) (hq : s.reqs = w :: ws) :
    step s = acceptWord w { s with reqs := ws, hpc := s.hpc + 1, draws := s.draws + 1 } := by
  have hne : s.reqs ≠ [] := by simp [hq]
  rw [step, nextStep_only _ (enabledMoves_ready _ _ hi hr hne), perform, nextDraw_reqs, hq, hostAdvance, nextDraw_reqs, hq]
  rfl

/-- Settles O19: ACCEPT of a word that decodes runs its instruction. -/
theorem stepRunsTheDecodedRequest : Obligations.StepRunsTheDecodedRequest := by
  intro s w ws i hi hr hq hd
  rw [step_of_ready hi hr hq, acceptWord_of_ok _ hd]

/-- Settles O20: ACCEPT of a word that decodes to nothing records ILLEGAL_REQUEST. -/
theorem stepRaisesIllegalRequest : Obligations.StepRaisesIllegalRequest := by
  intro s w ws r hi hr hq hd
  have hr' : Ready { s with reqs := ws, hpc := s.hpc + 1, draws := s.draws + 1 } := hr
  rw [step_of_ready hi hr hq, acceptWord_of_error hr' hd, raiseFault]

/-- R77: what the bare byte decodes to shows which request sends it (log entry 11). -/
theorem decodeWire_cases {b : Byte} {i : Instr} (h : decodeWire b = .ok i) :
    (i = .wcmdRead (wireAddr b) ∧ b = wcmdByte 1 (wireAddr b)) ∨ (i = .wcmdWrite (wireAddr b) ∧ b = wcmdByte 0 (wireAddr b)) := by
  unfold decodeWire at h
  split at h
  next => cases h
  next h0 =>
    have hb := wcmdByte_of_fields (not_not.mp h0)
    split at h
    next h7 => cases h; exact .inl ⟨rfl, by rw [← h7, hb]⟩
    next h7 => cases h; exact .inr ⟨rfl, by rw [← csN_eq_zero h7, hb]⟩

/-- A request for an address below 64, made of the address bits of a wire byte. -/
theorem wireAddr_widened (a : BitVec 6) : (a.setWidth 8 : Addr8).toNat < 64 ∧ (a.setWidth 8 : Addr8).setWidth 6 = a := by
  revert a; decide

/-- The step after placing a wire byte runs the request that sends it (log entry 11). -/
theorem step_withFetchWord_wire {s : State} {b : Byte} {i : Instr} (hi : StateInv s) (hr : Ready s)
    (h : encode i = .hreq (requestOfWire b)) :
    step (s.withFetchWord 8 b.toNat) =
      exec i { s with reqs := s.reqs.tail, hpc := s.hpc + 1, draws := s.draws + 1 } := by
  have hplace : s.withFetchWord 8 b.toNat = placeRequest (requestOfWire b) s := by
    simp [State.withFetchWord, requestOfTableWord]
  rw [hplace]
  exact stepRunsTheDecodedRequest (placeRequest (requestOfWire b) s) _ s.reqs.tail i hi hr rfl (decodeRequest_of_encode h)

/-- Settles O59: the request placed is the RDREG or WRREG whose command byte is `b`, and it is what the next step runs. -/
theorem placedWireCommandIsSentNext : Obligations.PlacedWireCommandIsSentNext := by
  intro s b i hi hr hc hd
  obtain ⟨-, -, -, ht, -, -⟩ := hi.of_idle hr.2
  obtain ⟨hlt, hlow⟩ := wireAddr_widened (wireAddr b)
  have hin : ((wireAddr b).setWidth 8 : Addr8).toNat < 128 := by omega
  obtain ⟨rfl, hb⟩ | ⟨rfl, hb⟩ := decodeWire_cases hd
  · have hcmd : cmd 1 (regAddr ((wireAddr b).setWidth 8)) = b := by rw [cmd_read, regAddr_low, hlow, ← hb]
    have henc : encode (.rdreg ((wireAddr b).setWidth 8)) = .hreq (requestOfWire b) := by rw [requestOfWire, hd, encode]
    exact ⟨_, (step_withFetchWord_wire hi hr henc).trans (exec_rdreg_deselected hr hc hin ht),
      congrArg some hcmd, congrArg some hcmd, rfl, rfl, rfl⟩
  · have ha : (regAddr ((wireAddr b).setWidth 8)).toNat < 64 := (regAddr_toNat hin).trans_lt hlt
    have hcmd : cmd 0 (regAddr ((wireAddr b).setWidth 8)) = b := by rw [cmd_write_low ha, regAddr_low, hlow, ← hb]
    have henc : encode (.wrreg ((wireAddr b).setWidth 8) 0) = .hreq (requestOfWire b) := by rw [requestOfWire, hd, encode]
    exact ⟨_, (step_withFetchWord_wire hi hr henc).trans (exec_wrreg_deselected 0 hr hc hin ht),
      congrArg some hcmd, congrArg some hcmd, rfl, rfl, rfl⟩

end Sys2Proof.Machine
end

section
/-! The invariants of the whole machine: the block's state (R37), the bus discipline (R100, R101), the count of requests (R61, R34) and
response data with OK only (R76). Each is kept by every rule of `MoveRule`, so by every enabled step of every agent and by `step`. -/

namespace Sys2Proof

open Sys2Proof.Machine

/-- R37 at rest, from the fields it speaks of. -/
theorem StateInv.idle {s : State} (hp : s.phase = .idle) (hx : s.xout = none) (hb : s.txbuf = none) (hs : s.shifter = none)
    (ht : s.txe = true) (hn : s.rxne = false) (hw : s.wdata = none) : StateInv s := by
  simp [StateInv, hp, hx, hb, hs, ht, hn, hw]

/-- R37 with the byte of the exchange in the transmit buffer. -/
theorem StateInv.queued {s : State} {o : Byte} (hp : s.phase ≠ .idle) (hc : s.csN = 0) (hf : s.fault = none)
    (hw : s.wdata ≠ none ↔ s.phase = .wrCmd) (hx : s.xout = some o) (hb : s.txbuf = some o) (hs : s.shifter = none)
    (ht : s.txe = false) (hn : s.rxne = false) : StateInv s := by
  simp [StateInv, hp, hc, hf, hx, hb, hs, ht, hn, ← hw]

/-- R37 with the byte of the exchange on the shifter. -/
theorem StateInv.shifting {s : State} {o : Byte} (hp : s.phase ≠ .idle) (hc : s.csN = 0) (hf : s.fault = none)
    (hw : s.wdata ≠ none ↔ s.phase = .wrCmd) (hx : s.xout = some o) (hb : s.txbuf = none) (hs : s.shifter = some o)
    (ht : s.txe = true) (hn : s.rxne = false) : StateInv s := by
  simp [StateInv, hp, hc, hf, hx, hb, hs, ht, hn, ← hw]

/-- R37 with the reply of the exchange received. -/
theorem StateInv.replied {s : State} {o inb : Byte} (hp : s.phase ≠ .idle) (hc : s.csN = 0) (hf : s.fault = none)
    (hw : s.wdata ≠ none ↔ s.phase = .wrCmd) (hx : s.xout = some o) (hb : s.txbuf = none) (hs : s.shifter = none)
    (ht : s.txe = true) (hn : s.rxne = true) (hr : s.rxbuf = some inb) : StateInv s := by
  simp [StateInv, hp, hc, hf, hx, hb, hs, ht, hn, hr, ← hw]

end Sys2Proof

namespace Sys2Proof.Machine

/-- R37 is kept: a rule leaves the block at rest, starts an exchange, or moves its byte on. -/
theorem MoveRule.keeps_stateInv {s t : State} {m : Move} (h : MoveRule s m t) (hi : StateInv s) : StateInv t := by
  cases h
  case illegal hp _ | breach hp _ | sel hp _ _ | desel hp _ _ | invalidAddress hp _ _ _ =>
    obtain ⟨hx, hb, hs, ht, hn, hw⟩ := hi.of_idle hp
    exact .idle hp hx hb hs ht hn hw
  case xfer d _ hf hp _ hc ht =>
    obtain ⟨-, -, hs, -, hn, hw⟩ := hi.of_idle hp
    exact .queued nofun hc hf (by simp [hw]) rfl rfl hs rfl hn
  case rdreg a8 _ hf hp _ _ _ ht =>
    obtain ⟨-, -, hs, -, hn, hw⟩ := hi.of_idle hp
    exact .queued nofun rfl hf (by simp [hw]) rfl rfl hs rfl hn
  case wrreg a8 d _ hf hp _ _ _ ht =>
    obtain ⟨-, -, hs, -, hn, -⟩ := hi.of_idle hp
    exact .queued nofun rfl hf (by simp) rfl rfl hs rfl hn
  case endXfer inb hf hn hp hr | endRdData inb hf hn hp hr | endWrData inb hf hn hp hr =>
    obtain ⟨hbusy, hb, hs, ht, -⟩ := hi.of_rxne hn
    obtain ⟨-, -, hw⟩ := hi.of_busy hbusy
    exact .idle rfl rfl hb hs ht rfl (by simpa [hp] using hw)
  case endRdCmd inb hf hn hp hr ht =>
    obtain ⟨hbusy, hb, hs, -, -⟩ := hi.of_rxne hn
    obtain ⟨hc, -, hw⟩ := hi.of_busy hbusy
    exact .queued nofun hc hf (by simpa [hp] using hw) rfl rfl hs rfl rfl
  case endWrCmd inb v hf hn hp hr ht hv =>
    obtain ⟨hbusy, hb, hs, -, -⟩ := hi.of_rxne hn
    obtain ⟨hc, -, -⟩ := hi.of_busy hbusy
    exact .queued nofun hc hf (by simp) rfl rfl hs rfl rfl
  case drain b _ hb _ =>
    obtain ⟨hbusy, hx, -, -, hn⟩ := hi.of_txbuf hb
    obtain ⟨hc, hf, hw⟩ := hi.of_busy hbusy
    exact .shifting hbusy hc hf hw hx rfl rfl rfl hn
  case receive o inb hs =>
    obtain ⟨hbusy, hx, hb, ht, -⟩ := hi.of_shifter hs
    obtain ⟨hc, hf, hw⟩ := hi.of_busy hbusy
    exact .replied hbusy hc hf hw hx hb rfl ht rfl rfl
  case stall => exact hi
  case timeoutXfer | timeoutReg => exact .idle rfl rfl rfl rfl rfl rfl rfl

/-- The window after a trace that goes on. -/
@[simp] theorem traceWindow_append (tr es : List BusEvent) :
    traceWindow (tr ++ es) = es.foldl windowStep (traceWindow tr) :=
  List.foldl_append

/-- R100 and R101 with the window closed and with it open. -/
theorem traceInv_closed {s : State} (hc : s.csN = 1) : TraceInv s ↔ traceWindow s.trace = some false := by
  simp [TraceInv, active, hc]

theorem traceInv_open {s : State} (hc : s.csN = 0) : TraceInv s ↔ traceWindow s.trace = some true := by
  simp [TraceInv, active, hc]

/-- R100 and R101 are kept: CS_ASSERT is emitted with the window closed, the other events with it open. -/
theorem MoveRule.keeps_traceInv {s t : State} {m : Move} (h : MoveRule s m t) (hi : StateInv s) (htr : TraceInv s) :
    TraceInv t := by
  cases h
  case illegal | breach | invalidAddress | xfer | endXfer | endRdCmd | endWrCmd | drain | stall => exact htr
  case sel hc | rdreg hc _ _ | wrreg hc _ _ =>
    have hw := (traceInv_closed hc).mp htr
    exact (traceInv_open rfl).mpr (by simp [hw, windowStep])
  case desel hc =>
    have hw := (traceInv_open hc).mp htr
    exact (traceInv_closed rfl).mpr (by simp [hw, windowStep])
  case endRdData inb _ _ hp _ | endWrData inb _ _ hp _ =>
    obtain ⟨hc, -, -⟩ := hi.of_busy (by simp [hp])
    have hw := (traceInv_open hc).mp htr
    exact (traceInv_closed rfl).mpr (by simp [hw, windowStep])
  case receive o inb hs =>
    obtain ⟨hbusy, -⟩ := hi.of_shifter hs
    obtain ⟨hc, -, -⟩ := hi.of_busy hbusy
    have hw := (traceInv_open hc).mp htr
    exact (traceInv_open ((finishRx_csN o inb s).trans hc)).mpr (by simp [hw, windowStep])
  case timeoutXfer o _ hp _ _ =>
    obtain ⟨hc, -, -⟩ := hi.of_busy (by simp [hp])
    have hw := (traceInv_open hc).mp htr
    have hc' : (respond .busTimeout none (setPhase .idle (abandonExchange o s))).csN = 0 := hc
    exact (traceInv_open hc').mpr (by simp [hw, windowStep])
  case timeoutReg o _ hp _ _ _ =>
    obtain ⟨hc, -, -⟩ := hi.of_busy hp
    have hw := (traceInv_open hc).mp htr
    exact (traceInv_closed rfl).mpr (by simp [hw, windowStep])

/-- R61 and R34 are kept: ACCEPT issues a request and answers it, starts it or faults; the end of a request answers it. -/
theorem MoveRule.keeps_requestCountInv {s t : State} {m : Move} (h : MoveRule s m t)
    (hn : RequestCountInv s) : RequestCountInv t := by
  cases h
  case illegal hf hp _ | breach hf hp _ | sel hf hp _ _ | desel hf hp _ _ | invalidAddress hf hp _ _ _ |
      xfer hf hp _ _ _ | rdreg hf hp _ _ _ _ | wrreg hf hp _ _ _ _ =>
    simpa [RequestCountInv, hf, hp] using hn
  case endXfer hf _ hp _ | endRdCmd hf _ hp _ _ | endRdData hf _ hp _ | endWrCmd hf _ hp _ _ _ | endWrData hf _ hp _ |
      timeoutXfer hf hp _ _ | timeoutReg hf hp _ _ _ =>
    simpa [RequestCountInv, hf, hp] using hn
  case drain | receive | stall => exact hn

/-- R34 and R76 for a response appended. -/
theorem responseDataInv_respond {s : State} {st : Status} {d : Option Byte} (h : ResponseDataInv s)
    (hd : st ≠ .ok → d = none) : ResponseDataInv (respond st d s) := by
  intro r hr
  obtain hr | hr := List.mem_append.mp hr
  · exact h r hr
  · obtain rfl := List.mem_singleton.mp hr
    exact hd

/-- R34 and R76 are kept: a response with data has the status OK. -/
theorem MoveRule.keeps_responseDataInv {s t : State} {m : Move} (h : MoveRule s m t) (hd : ResponseDataInv s) :
    ResponseDataInv t := by
  cases h
  case illegal | breach | xfer | rdreg | wrreg | endRdCmd | endWrCmd | drain | receive | stall => exact hd
  case endXfer | endRdData => exact responseDataInv_respond hd (absurd rfl)
  case sel | desel | invalidAddress | endWrData | timeoutXfer | timeoutReg => exact responseDataInv_respond hd fun _ => rfl

/-- An invariant that every rule keeps, and that does not read the counter of free values, is kept by `step`. -/
theorem step_keeps {P : State → Prop} (hdraw : ∀ s, P s → P (nextDraw s))
    (hrule : ∀ s m t, MoveRule s m t → P s → P t) {s t : State} (hs : P s) (h : step s = .next t) : P t := by
  obtain ⟨m, he, hm⟩ | ⟨-, hno⟩ := nextStep_cases Config.cfg (Config.pick s.draws) (Config.reply s.draws) s
  · have he' : enabled Config.cfg (nextDraw s) m = true := (enabled_nextDraw _ s m).trans he
    exact hrule _ m t (move_of_enabled he' (hm.symm.trans h)) (hdraw s hs)
  · have hstep := hno.symm.trans h
    rw [noStep] at hstep
    split at hstep
    · cases hstep
    · cases hstep; exact hs

/-- Settles O2: the reset state is at rest with empty logs. -/
theorem resetMeetsEveryInvariant : Obligations.ResetMeetsEveryInvariant :=
  ⟨.idle rfl rfl rfl rfl rfl rfl rfl, (traceInv_closed rfl).mpr rfl, rfl, List.forall_mem_nil _⟩

/-- Settles O38. -/
theorem stepKeepsStateInv : Obligations.StepKeepsStateInv := fun _ _ hi h =>
  step_keeps (P := StateInv) (fun _ hi => hi) (fun _ _ _ hm hi => hm.keeps_stateInv hi) hi h

/-- Settles O39. -/
theorem stepKeepsTraceInv : Obligations.StepKeepsTraceInv := fun _ _ hi htr h =>
  (step_keeps (P := fun s => StateInv s ∧ TraceInv s) (fun _ hs => hs)
    (fun _ _ _ hm hs => ⟨hm.keeps_stateInv hs.1, hm.keeps_traceInv hs.1 hs.2⟩) ⟨hi, htr⟩ h).2

/-- Settles O40. -/
theorem stepKeepsRequestCount : Obligations.StepKeepsRequestCount := fun _ _ _ hn h =>
  step_keeps (P := RequestCountInv) (fun _ hn => hn) (fun _ _ _ hm hn => hm.keeps_requestCountInv hn) hn h

/-- Settles O41. -/
theorem stepKeepsResponseData : Obligations.StepKeepsResponseData := fun _ _ hd h =>
  step_keeps (P := ResponseDataInv) (fun _ hd => hd) (fun _ _ _ hm hd => hm.keeps_responseDataInv hd) hd h

/-- Settles O42: an enabled step follows a rule, and each rule keeps each invariant. -/
theorem everyAgentStepKeepsTheInvariants : Obligations.EveryAgentStepKeepsTheInvariants := by
  intro cfg m s t hi htr hn hd he h
  have hm := move_of_enabled he h
  exact ⟨hm.keeps_stateInv hi, hm.keeps_traceInv hi htr, hm.keeps_requestCountInv hn, hm.keeps_responseDataInv hd⟩

end Sys2Proof.Machine
end

section
/-! What a step changes in the flags (R32) and the logs (R33, R34), and that every enabled step of a state that meets R37 has an effect
(R9) and may be the next one (R20). -/

namespace Sys2Proof.Machine

/-- R25: the steps that move the chip-select line. -/
theorem MoveRule.csN_cases {s t : State} {m : Move} (h : MoveRule s m t) :
    t.csN = s.csN ∨
    (t.csN = 0 ∧ m = .accept ∧ ∃ w ws i, s.reqs = w :: ws ∧ decodeRequest w = .ok i ∧
      (i = .sel ∨ (∃ a, i = .rdreg a) ∨ ∃ a d, i = .wrreg a d)) ∨
    (t.csN = 1 ∧ ((m = .accept ∧ ∃ w ws, s.reqs = w :: ws ∧ decodeRequest w = .ok .desel) ∨
      (m = .complete ∧ (s.phase = .rdData ∨ s.phase = .wrData)) ∨ (m = .timeout ∧ s.phase ≠ .xfer))) := by
  cases h
  case sel w ws hq _ _ hd _ => exact .inr (.inl ⟨rfl, rfl, w, ws, _, hq, hd, .inl rfl⟩)
  case rdreg w ws a hq _ _ hd _ _ _ => exact .inr (.inl ⟨rfl, rfl, w, ws, _, hq, hd, .inr (.inl ⟨a, rfl⟩)⟩)
  case wrreg w ws a d hq _ _ hd _ _ _ => exact .inr (.inl ⟨rfl, rfl, w, ws, _, hq, hd, .inr (.inr ⟨a, d, rfl⟩)⟩)
  case desel w ws hq _ _ hd _ => exact .inr (.inr ⟨rfl, .inl ⟨rfl, w, ws, hq, hd⟩⟩)
  case endRdData hp _ => exact .inr (.inr ⟨rfl, .inr (.inl ⟨rfl, .inl hp⟩)⟩)
  case endWrData hp _ => exact .inr (.inr ⟨rfl, .inr (.inl ⟨rfl, .inr hp⟩)⟩)
  case timeoutReg hx _ _ => exact .inr (.inr ⟨rfl, .inr (.inr ⟨rfl, hx⟩)⟩)
  all_goals exact .inl rfl

/-- R26: the steps that change the phase. -/
theorem MoveRule.phase_cases {s t : State} {m : Move} (h : MoveRule s m t) :
    t.phase = s.phase ∨ (s.phase ≠ .idle ∧ (m = .complete ∨ m = .timeout)) ∨
    (m = .accept ∧ ∃ w ws i, s.reqs = w :: ws ∧ decodeRequest w = .ok i ∧
      ((∃ d, i = .xfer d) ∨ (∃ a, i = .rdreg a) ∨ ∃ a d, i = .wrreg a d)) := by
  cases h
  case xfer w ws d hq _ _ hd _ _ => exact .inr (.inr ⟨rfl, w, ws, _, hq, hd, .inl ⟨d, rfl⟩⟩)
  case rdreg w ws a hq _ _ hd _ _ _ => exact .inr (.inr ⟨rfl, w, ws, _, hq, hd, .inr (.inl ⟨a, rfl⟩)⟩)
  case wrreg w ws a d hq _ _ hd _ _ _ => exact .inr (.inr ⟨rfl, w, ws, _, hq, hd, .inr (.inr ⟨a, d, rfl⟩)⟩)
  case endXfer hp _ | endRdCmd hp _ _ | endRdData hp _ | endWrCmd hp _ _ _ | endWrData hp _ =>
    exact .inr (.inl ⟨by simp [hp], .inl rfl⟩)
  case timeoutXfer hp _ _ => exact .inr (.inl ⟨by simp [hp], .inr rfl⟩)
  case timeoutReg hp _ _ _ => exact .inr (.inl ⟨hp, .inr rfl⟩)
  all_goals exact .inl rfl

/-- R27: the steps that change `txe`. -/
theorem MoveRule.txe_cases {s t : State} {m : Move} (h : MoveRule s m t) :
    t.txe = s.txe ∨ (t.txe = true ∧ (m = .txDrain ∨ m = .timeout)) ∨ (t.txe = false ∧ (m = .accept ∨ m = .complete)) := by
  cases h
  case xfer | rdreg | wrreg => exact .inr (.inr ⟨rfl, .inl rfl⟩)
  case endRdCmd | endWrCmd => exact .inr (.inr ⟨rfl, .inr rfl⟩)
  case drain => exact .inr (.inl ⟨rfl, .inl rfl⟩)
  case timeoutXfer | timeoutReg => exact .inr (.inl ⟨rfl, .inr rfl⟩)
  all_goals exact .inl rfl

/-- R27: the steps that change `rxne`. -/
theorem MoveRule.rxne_cases {s t : State} {m : Move} (h : MoveRule s m t) :
    t.rxne = s.rxne ∨ (t.rxne = true ∧ ∃ inb, m = .rxDone inb) ∨ (t.rxne = false ∧ m = .complete) := by
  cases h
  case endXfer | endRdCmd | endRdData | endWrCmd | endWrData => exact .inr (.inr ⟨rfl, rfl⟩)
  case receive inb _ => exact .inr (.inl ⟨rfl, inb, rfl⟩)
  case timeoutXfer hn _ | timeoutReg hn _ => exact .inl hn.symm
  all_goals exact .inl rfl

/-- R25: `active` is the chip-select level 0. -/
theorem active_eq_false_iff (s : State) : active s = false ↔ s.csN = 1 := by
  rw [active, decide_eq_false_iff_not]
  exact ⟨csN_eq_one, fun h => by rw [h]; decide⟩

theorem active_eq_true_iff (s : State) : active s = true ↔ s.csN = 0 := decide_eq_true_iff

/-- R26: `busy` is a phase that is not IDLE. -/
theorem busy_eq_true_iff (s : State) : busy s = true ↔ s.phase ≠ .idle := decide_eq_true_iff

/-- Settles O31: each flag by the cases in which its field changes. -/
theorem flagsChangeOnlyAsTabled : Obligations.FlagsChangeOnlyAsTabled := by
  intro cfg m s t he h
  have hm := move_of_enabled he h
  simp only [active_eq_false_iff, active_eq_true_iff, busy_eq_false_iff, busy_eq_true_iff]
  refine ⟨fun hs ht => ?_, fun hs ht => ?_, fun hs ht => ?_, fun hs ht => ?_, fun hs ht => ?_, fun hs ht => ?_,
    fun hs ht => ?_, fun hs ht => ?_, fun hs ht => ?_, fun hs => ?_⟩
  · obtain hkeep | ⟨-, hopen⟩ | ⟨hclosed, -⟩ := hm.csN_cases
    · simp [hs, ht] at hkeep
    · exact hopen
    · simp [ht] at hclosed
  · obtain hkeep | ⟨hopen, -⟩ | ⟨-, hclose⟩ := hm.csN_cases
    · simp [hs, ht] at hkeep
    · simp [ht] at hopen
    · exact hclose
  · obtain hkeep | ⟨hbusy, -⟩ | hstart := hm.phase_cases
    · exact absurd (hkeep.trans hs) ht
    · exact absurd hs hbusy
    · exact hstart
  · obtain hkeep | ⟨-, hend⟩ | ⟨hacc, -⟩ := hm.phase_cases
    · exact absurd (hkeep.symm.trans ht) hs
    · exact hend
    · exact absurd he (by simp [hacc, enabled_accept_of_busy cfg hs])
  · obtain hkeep | ⟨-, hset⟩ | ⟨hclear, -⟩ := hm.txe_cases
    · simp [hs, ht] at hkeep
    · exact hset
    · simp [ht] at hclear
  · obtain hkeep | ⟨hset, -⟩ | ⟨-, hclear⟩ := hm.txe_cases
    · simp [hs, ht] at hkeep
    · simp [ht] at hset
    · exact hclear
  · obtain hkeep | ⟨-, hset⟩ | ⟨hclear, -⟩ := hm.rxne_cases
    · simp [hs, ht] at hkeep
    · exact hset
    · simp [ht] at hclear
  · obtain hkeep | ⟨hset, -⟩ | ⟨-, hclear⟩ := hm.rxne_cases
    · simp [hs, ht] at hkeep
    · simp [ht] at hset
    · exact hclear
  · obtain hkeep | ⟨hacc, -⟩ := hm.fault_cases
    · exact absurd (hkeep.trans hs) ht
    · exact hacc
  · obtain hkeep | ⟨-, hnone, -⟩ := hm.fault_cases
    · exact hkeep
    · exact absurd hnone hs

/-- R33, R34: what a step appends to the logs. -/
theorem MoveRule.logs_append {s t : State} {m : Move} (h : MoveRule s m t) :
    ∃ es rs, t.trace = s.trace ++ es ∧ es.length ≤ 2 ∧ t.rspLog = s.rspLog ++ rs ∧ rs.length ≤ 1 := by
  have hnil {α : Type} (l : List α) : l = l ++ [] := (List.append_nil l).symm
  cases h
  case illegal | breach | xfer | endRdCmd | endWrCmd | drain | stall =>
    exact ⟨[], [], hnil _, by simp, hnil _, by simp⟩
  case invalidAddress | endXfer => exact ⟨[], [_], hnil _, by simp, rfl, by simp⟩
  case rdreg | wrreg | receive => exact ⟨[_], [], rfl, by simp, hnil _, by simp⟩
  case sel | desel | endRdData | endWrData | timeoutXfer => exact ⟨[_], [_], rfl, by simp, rfl, by simp⟩
  case timeoutReg o _ _ _ _ _ => exact ⟨[.xchgAbort o, .csDeassert], [_], by simp, by simp, rfl, by simp⟩

/-- Settles O32. -/
theorem logsOnlyGrow : Obligations.LogsOnlyGrow := fun _ _ _ _ he h => (move_of_enabled he h).logs_append

/-- `Start` always answers a next state. -/
theorem startThen_next (held s : State) (out : Byte) (after : State → State) :
    ∃ t, startThen held out after s = .next t := by
  cases ht : s.txe with
  | true => exact ⟨_, startThen_free out after ht⟩
  | false => exact ⟨_, startThen_held out after ht⟩

/-- Without a fault recorded, every instruction answers a next state. -/
theorem exec_next {s : State} (i : Instr) (hf : s.fault = none) : ∃ t, exec i s = .next t := by
  by_cases hp : s.phase = .idle
  case neg => exact ⟨s, exec_busy i hf hp⟩
  cases i with
  | sel => rw [exec, execSel, whenReady_ready _ hf hp]; split <;> exact ⟨_, rfl⟩
  | desel => rw [exec, execDesel, whenReady_ready _ hf hp]; split <;> exact ⟨_, rfl⟩
  | xfer d =>
    rw [exec, execXfer, whenReady_ready _ hf hp]
    split
    · exact ⟨_, rfl⟩
    · exact startThen_next ..
  | rdreg a8 =>
    rw [exec, execRdreg, whenReady_ready _ hf hp]
    split
    · exact ⟨_, rfl⟩
    split
    · exact ⟨_, rfl⟩
    · exact startThen_next ..
  | wrreg a8 d =>
    rw [exec, execWrreg, whenReady_ready _ hf hp]
    split
    · exact ⟨_, rfl⟩
    split
    · exact ⟨_, rfl⟩
    · exact startThen_next ..
  | wcmdRead a => rw [exec, execWcmdRead, whenReady_ready _ hf hp]; exact startThen_next ..
  | wcmdWrite a => rw [exec, execWcmdWrite, whenReady_ready _ hf hp]; exact startThen_next ..
  | wcmdWriteHi a => rw [exec, execWcmdWriteHi, whenReady_ready _ hf hp]; exact startThen_next ..

/-- R90: an ACCEPT without a fault recorded answers a next state. -/
theorem acceptWord_next {s : State} (w : Word24) (hr : Ready s) : ∃ t, acceptWord w s = .next t := by
  cases hd : decodeRequest w with
  | ok i => rw [acceptWord_of_ok s hd]; exact exec_next i hr.1
  | error r => exact ⟨_, acceptWord_of_error hr hd⟩

/-- R94 with R37: COMPLETE of a reply that is in reads nothing that is absent. -/
theorem complete_next {s : State} (hi : StateInv s) (hn : s.rxne = true) : ∃ t, perform .complete s = .next t := by
  obtain ⟨hp, -, -, ht, inb, hb⟩ := hi.of_rxne hn
  obtain ⟨-, -, hw⟩ := hi.of_busy hp
  cases h : s.phase with
  | idle => exact absurd h hp
  | xfer => exact ⟨_, perform_complete_xfer h hb⟩
  | rdCmd => exact ⟨_, perform_complete_rdCmd h hb ht⟩
  | rdData => exact ⟨_, perform_complete_rdData h hb⟩
  | wrCmd =>
    obtain ⟨v, hv⟩ := Option.ne_none_iff_exists'.mp (hw.mpr h)
    exact ⟨_, perform_complete_wrCmd h hb ht hv⟩
  | wrData => exact ⟨_, perform_complete_wrData h hb⟩

/-- R141 with R37: the byte of an exchange that waits is known. -/
theorem timeout_next {s : State} (hi : StateInv s) (hp : s.phase ≠ .idle) (hn : s.rxne = false) :
    ∃ t, perform .timeout s = .next t := by
  obtain ⟨o, ho, -⟩ := hi.of_waiting hp hn
  by_cases hx : s.phase = .xfer
  · exact ⟨_, perform_timeout_xfer hx ho⟩
  · exact ⟨_, perform_timeout_register hp hx ho⟩

/-- Every enabled step of a state that meets R37 answers a next state. -/
theorem perform_next_of_enabled {cfg : Cfg} {s : State} {m : Move} (hi : StateInv s) (he : enabled cfg s m = true) :
    ∃ t, perform m s = .next t := by
  cases m with
  | accept =>
    obtain ⟨hr, w, ws, hq, -⟩ := (enabled_accept_iff cfg s).mp he
    rw [perform, hq]
    exact acceptWord_next w hr
  | complete => exact complete_next hi ((enabled_complete_iff cfg s).mp he).2.1
  | txDrain =>
    obtain ⟨b, hb⟩ := Option.ne_none_iff_exists'.mp ((enabled_txDrain_iff cfg s).mp he).2.1
    exact ⟨_, perform_txDrain hb⟩
  | rxDone inb =>
    obtain ⟨o, ho⟩ := Option.ne_none_iff_exists'.mp ((enabled_rxDone_iff cfg s inb).mp he)
    exact ⟨_, perform_rxDone inb ho⟩
  | stall => exact ⟨s, rfl⟩
  | timeout =>
    obtain ⟨-, -, hp, hn⟩ := (enabled_timeout_iff cfg s).mp he
    exact timeout_next hi hp hn

/-- Settles O43: an enabled step answers a next state, and with none enabled nothing is read. -/
theorem stepReadsNoMissingValue : Obligations.StepReadsNoMissingValue := by
  intro s p hi h
  obtain ⟨m, he, hm⟩ | ⟨-, hno⟩ := nextStep_cases Config.cfg (Config.pick s.draws) (Config.reply s.draws) s
  · have hi' : StateInv (nextDraw s) := hi
    obtain ⟨t, ht⟩ := perform_next_of_enabled hi' ((enabled_nextDraw _ s m).trans he)
    have hstep := ht.symm.trans (hm.symm.trans h)
    cases hstep
  · have hstep : noStep s = .fault (.noValue p) := hno.symm.trans h
    rw [noStep] at hstep
    split at hstep <;> cases hstep

/-- A step draws one byte or none. -/
theorem exists_drawn (m : Move) : ∃ inb, ∀ b, m = .rxDone b → b = inb := by
  cases m with
  | rxDone inb => exact ⟨inb, fun b hb => (Move.rxDone.inj hb).symm⟩
  | _ => exact ⟨0, nofun⟩

/-- Settles O44: with its own byte drawn the step is in the list of enabled ones, and some value picks it. -/
theorem everyEnabledStepMayBeNext : Obligations.EveryEnabledStepMayBeNext := by
  intro cfg s m he
  obtain ⟨inb, hinb⟩ := exists_drawn m
  obtain ⟨pick, hpick⟩ := choose_of_mem (mem_enabledMoves.mpr ⟨he, hinb⟩)
  refine ⟨pick, inb, ?_⟩
  rw [nextStep, hpick, nextDraw]

end Sys2Proof.Machine
end

section
/-! The codes of the faults and of the responses (R28, R76, R177), and the assembler's words (R83). -/

namespace Sys2Proof.Machine

/-- R28: the code 0 names no cause. -/
theorem faultCauseCode_ne_zero (c : FaultCause) : faultCauseCode c ≠ 0 := by
  cases c <;> decide

/-- R35: the port reads 0 exactly without a fault. -/
theorem faultCode_eq_zero_iff (s : State) : faultCode s = 0 ↔ s.fault = none := by
  refine ⟨fun h => ?_, faultCode_of_fault_none⟩
  cases hf : s.fault with
  | none => rfl
  | some f =>
    obtain ⟨c, w⟩ := f
    exact absurd ((faultCode_of_fault hf).symm.trans h) (faultCauseCode_ne_zero c)

/-- Settles O55. -/
theorem faultCodesOfTheSpec : Obligations.FaultCodesOfTheSpec :=
  ⟨rfl, rfl, rfl, rfl, rfl, faultCode_eq_zero_iff⟩

/-- R76: the code 3 is reserved. -/
theorem statusCode_ne_three (st : Status) : statusCode st ≠ 3 := by
  cases st <;> decide

/-- R76: the word of a response with data. -/
theorem responseWord_some (st : Status) (b : Byte) : responseWord ⟨st, some b⟩ = .ok (statusCode st ++ b) := rfl

/-- Settles O56: the fields of an appended word are its parts. -/
theorem responseFormat : Obligations.ResponseFormat :=
  ⟨rfl, rfl, rfl, statusCode_ne_three,
    fun st b => ⟨_, responseWord_some st b, BitVec.extractLsb'_append_eq_left, BitVec.extractLsb'_append_eq_right, rfl⟩,
    fun _ => rfl⟩

/-- A byte below 256 written in 24 bits. -/
theorem ofNat_eq_setWidth_byte {d : Nat} (h : d < 256) : BitVec.ofNat 24 d = (BitVec.ofNat 8 d).setWidth 24 :=
  BitVec.eq_of_toNat_eq (by simp; omega)

theorem ofNat_shiftLeft_eight (a : Nat) : BitVec.ofNat 24 (a <<< 8) = BitVec.ofNat 24 a <<< 8 :=
  BitVec.eq_of_toNat_eq (by simp [Nat.shiftLeft_eq, Nat.mod_mul_mod])

/-- R83: the words of the assembler are those of R73. -/
theorem ofNat_xferWord {d : Nat} (h : d < 256) : BitVec.ofNat 24 (0x300000 ||| d) = hreqWord 0x3 0 (BitVec.ofNat 8 d) := by
  rw [hreqWord_xfer, ← ofNat_eq_setWidth_byte h, BitVec.ofNat_or]

theorem ofNat_rdregWord {a : Nat} (h : a < 256) :
    BitVec.ofNat 24 (0x400000 ||| (a <<< 8)) = hreqWord 0x4 (BitVec.ofNat 8 a) 0 := by
  rw [hreqWord_rdreg, ← ofNat_eq_setWidth_byte h, BitVec.ofNat_or, ofNat_shiftLeft_eight]

theorem ofNat_wrregWord {a d : Nat} (ha : a < 256) (hd : d < 256) :
    BitVec.ofNat 24 (0x500000 ||| (a <<< 8) ||| d) = hreqWord 0x5 (BitVec.ofNat 8 a) (BitVec.ofNat 8 d) := by
  rw [hreqWord_wrreg, ← ofNat_eq_setWidth_byte ha, ← ofNat_eq_setWidth_byte hd, BitVec.ofNat_or, BitVec.ofNat_or,
    ofNat_shiftLeft_eight]

/-- Settles O57: an operand in range gives the encoding of the request, and one out of range none. -/
theorem assemblerWordsAndRanges : Obligations.AssemblerWordsAndRanges := by
  refine ⟨rfl, rfl, fun a d w => ⟨fun hd => ?_, fun ha => ?_, fun ha hd => ?_, fun hw => if_pos hw, fun hd => ?_, fun ha => ?_, fun hw => ?_⟩⟩
  · exact ⟨_, if_pos hd, decodeRequest_of_encode (congrArg Code.hreq (ofNat_xferWord hd).symm)⟩
  · exact ⟨_, if_pos ha, decodeRequest_of_encode (congrArg Code.hreq (ofNat_rdregWord (by omega)).symm)⟩
  · exact ⟨_, if_pos ⟨ha, hd⟩, decodeRequest_of_encode (congrArg Code.hreq (ofNat_wrregWord (by omega) hd).symm)⟩
  · exact ⟨if_neg (by omega), if_neg (by omega)⟩
  · exact ⟨if_neg (by omega), if_neg (by omega)⟩
  · exact if_neg (by omega)

end Sys2Proof.Machine
end

section
/-! One exchange at a time. The stages of a request (at rest, its byte queued, its byte shifting, its reply received) are predicates over
what the device cannot change, the `View`; each step is a triple from stage to stage (`Does`), and a run is a chain of triples. -/

namespace Sys2Proof.Machine

/-- What of a state the requests and their outcomes are told by. -/
structure View where
  phase : Phase
  csN : Bit
  wdata : Option Byte
  reqs : List Word24
  trace : List BusEvent
  rspLog : List Response

/-- The view of a state. -/
def view (s : State) : View := ⟨s.phase, s.csN, s.wdata, s.reqs, s.trace, s.rspLog⟩

/-- After an exchange of `o` for `x` (R93). -/
@[simp] def View.exchanged (o x : Byte) (v : View) : View := { v with trace := v.trace ++ [.xchg o x] }

/-- After a response. -/
@[simp] def View.answered (st : Status) (d : Option Byte) (v : View) : View := { v with rspLog := v.rspLog ++ [⟨st, d⟩] }

/-- After the window is opened. -/
@[simp] def View.opened (v : View) : View := { v with csN := 0, trace := v.trace ++ [.csAssert] }

/-- After the window is closed. -/
@[simp] def View.closed (v : View) : View := { v with csN := 1, trace := v.trace ++ [.csDeassert] }

/-- After HOST has issued its next word (R31). -/
@[simp] def View.issued (v : View) : View := { v with reqs := v.reqs.tail }

/-- In phase `p` with the value latch at `w`. -/
@[simp] def View.inPhase (p : Phase) (w : Option Byte) (v : View) : View := { v with phase := p, wdata := w }

theorem View.inPhase_of_wdata {v : View} {w : Option Byte} (p : Phase) (h : v.wdata = w) :
    v.inPhase p w = { v with phase := p } := by
  rw [View.inPhase, ← h]

/-- After the exchange of `o` is abandoned (R142), before the window is dealt with. -/
@[simp] def View.aborted (o : Byte) (v : View) : View := { v with trace := v.trace ++ [.xchgAbort o] }

/-- After a timeout of the exchange of `o` (R142): XFER's window stays open. -/
def View.timedOut (o : Byte) (v : View) : View :=
  (if v.phase = .xfer then v.aborted o else (v.aborted o).closed).inPhase .idle none |>.answered .busTimeout none

/-- A ready block. -/
structure Resting (v : View) (s : State) : Prop where
  inv : StateInv s
  ready : Ready s
  view_eq : view s = v

/-- The byte `o` of the exchange in progress is in the transmit buffer. -/
structure Queued (v : View) (o : Byte) (s : State) : Prop where
  inv : StateInv s
  view_eq : view s = v
  txbuf : s.txbuf = some o

/-- The byte `o` of the exchange in progress is on the shifter. -/
structure Shifting (v : View) (o : Byte) (s : State) : Prop where
  inv : StateInv s
  view_eq : view s = v
  shifter : s.shifter = some o

/-- The reply `x` of the exchange in progress is received. -/
structure Replied (v : View) (x : Byte) (s : State) : Prop where
  inv : StateInv s
  view_eq : view s = v
  rxne : s.rxne = true
  rxbuf : s.rxbuf = some x

/-- The step `m` is enabled in `s` and leads to a state with `P`. -/
def Does (cfg : Cfg) (s : State) (m : Move) (P : State → Prop) : Prop :=
  enabled cfg s m = true ∧ ∃ t, perform m s = .next t ∧ P t

/-- R37 comes with every step taken. -/
theorem Does.of_perform {cfg : Cfg} {s t : State} {m : Move} {P : State → Prop} (hi : StateInv s)
    (he : enabled cfg s m = true) (h : perform m s = .next t) (hP : StateInv t → P t) : Does cfg s m P :=
  ⟨he, t, h, hP ((move_of_enabled he h).keeps_stateInv hi)⟩

/-- The state that a step leads to is the one it answers. -/
theorem Does.result {cfg : Cfg} {s t : State} {m : Move} {P : State → Prop} (hd : Does cfg s m P)
    (h : perform m s = .next t) : P t := by
  obtain ⟨-, u, hu, hP⟩ := hd
  cases hu.symm.trans h
  exact hP

/-- R92. -/
theorem Queued.drain {cfg : Cfg} {v : View} {o : Byte} {s : State} (h : Queued v o s) :
    Does cfg s .txDrain (Shifting v o) := by
  obtain ⟨hi, rfl, hb⟩ := h
  obtain ⟨-, -, hs, ht, -⟩ := hi.of_txbuf hb
  exact .of_perform hi ((enabled_txDrain_iff cfg s).mpr ⟨ht, by simp [hb], hs⟩) (perform_txDrain hb)
    fun hi' => ⟨hi', rfl, rfl⟩

/-- R93. -/
theorem Shifting.receive {cfg : Cfg} {v : View} {o : Byte} {s : State} (x : Byte) (h : Shifting v o s) :
    Does cfg s (.rxDone x) (Replied (v.exchanged o x) x) := by
  obtain ⟨hi, rfl, hs⟩ := h
  exact .of_perform hi ((enabled_rxDone_iff cfg s x).mpr (by simp [hs])) (perform_rxDone x hs)
    fun hi' => ⟨hi', rfl, rfl, rfl⟩

/-- R90: the triple of an ACCEPT, by the meaning of the request. -/
theorem Resting.accept {cfg : Cfg} {v : View} {s t : State} {w : Word24} {ws : List Word24} {i : Instr} {P : State → Prop}
    (h : Resting v s) (hq : v.reqs = w :: ws) (hw : encode i = .hreq w) (hx : exec i (hostAdvance s) = .next t)
    (hP : StateInv t → P t) : Does cfg s .accept P := by
  obtain ⟨hi, hr, rfl⟩ := h
  have hq' : s.reqs = w :: ws := hq
  have he : enabled cfg s .accept = true := (enabled_idle_iff hi hr.2).mpr ⟨rfl, hr.1, by simp [hq']⟩
  refine .of_perform hi he ?_ hP
  rw [perform, hq']
  exact (acceptWord_of_ok _ (decodeRequest_of_encode hw)).trans hx

/-- R96. -/
theorem Resting.sel {cfg : Cfg} {v : View} {s : State} {w : Word24} {ws : List Word24} (h : Resting v s) (hc : v.csN = 1)
    (hq : v.reqs = w :: ws) (hw : encode .sel = .hreq w) :
    Does cfg s .accept (Resting (v.issued.opened.answered .ok none)) := by
  obtain ⟨-, hr, rfl⟩ := id h
  exact h.accept hq hw (exec_sel_deselected (s := hostAdvance s) hr hc) fun hi' => ⟨hi', hr, rfl⟩

/-- R97. -/
theorem Resting.desel {cfg : Cfg} {v : View} {s : State} {w : Word24} {ws : List Word24} (h : Resting v s) (hc : v.csN = 0)
    (hq : v.reqs = w :: ws) (hw : encode .desel = .hreq w) :
    Does cfg s .accept (Resting (v.issued.closed.answered .ok none)) := by
  obtain ⟨-, hr, rfl⟩ := id h
  exact h.accept hq hw (exec_desel_selected (s := hostAdvance s) hr hc) fun hi' => ⟨hi', hr, rfl⟩

/-- R98. -/
theorem Resting.xfer {cfg : Cfg} {v : View} {s : State} {w : Word24} {ws : List Word24} {d : Byte} (h : Resting v s)
    (hc : v.csN = 0) (hq : v.reqs = w :: ws) (hw : encode (.xfer d) = .hreq w) :
    Does cfg s .accept (Queued (v.issued.inPhase .xfer none) d) := by
  obtain ⟨hi, hr, rfl⟩ := id h
  obtain ⟨-, -, -, ht, -, hwd⟩ := hi.of_idle hr.2
  refine h.accept hq hw (exec_xfer_selected (s := hostAdvance s) d hr hc ht) fun hi' => ⟨hi', ?_, rfl⟩
  rw [View.inPhase_of_wdata (v := (view s).issued) .xfer hwd]; rfl

/-- R94 and R99. -/
theorem Replied.end_xfer {cfg : Cfg} {v : View} {x : Byte} {s : State} (h : Replied v x s) (hp : v.phase = .xfer) :
    Does cfg s .complete (Resting ((v.inPhase .idle none).answered .ok (some x))) := by
  obtain ⟨hi, rfl, hn, hb⟩ := h
  have hp' : s.phase = .xfer := hp
  obtain ⟨-, hf, hw⟩ := hi.of_busy (by simp [hp'])
  have hwd : s.wdata = none := by simpa [hp'] using hw
  refine .of_perform hi ((enabled_replied_iff hi hn).mpr rfl) (perform_complete_xfer hp' hb) fun hi' => ⟨hi', ⟨hf, rfl⟩, ?_⟩
  rw [View.inPhase_of_wdata (v := view s) .idle hwd]; rfl

/-- The two register transactions: RDREG, and WRREG of a value. -/
inductive RegOp where
  | read
  | write (d : Byte)

namespace RegOp

/-- The request that starts the transaction. -/
def request : RegOp → Addr8 → Instr
  | read, a8 => .rdreg a8
  | write d, a8 => .wrreg a8 d

/-- Its R/W intent. -/
def rw : RegOp → Bit
  | read => Config.rwRead
  | write _ => Config.rwWrite

/-- The byte it sends first (R115, R118). -/
def command (op : RegOp) (a8 : Addr8) : Byte := cmd op.rw (regAddr a8)

/-- The byte it sends second (R116, R119). -/
def data : RegOp → Byte
  | read => Config.dummyByte
  | write d => d

/-- The phase of the first exchange. -/
def cmdPhase : RegOp → Phase
  | read => .rdCmd
  | write _ => .wrCmd

/-- The phase of the second exchange. -/
def dataPhase : RegOp → Phase
  | read => .rdData
  | write _ => .wrData

/-- The value latched during the first exchange (R118). -/
def latch : RegOp → Option Byte
  | read => none
  | write d => some d

/-- The data of its response, from the second reply (R117, R120). -/
def answer : RegOp → Byte → Option Byte
  | read, y => some y
  | write _, _ => none

/-- The view while the first exchange is in progress. -/
def started (op : RegOp) (v : View) : View := v.issued.opened.inPhase op.cmdPhase op.latch

/-- The view after the whole transaction, with the replies `x` and `y` (R121, R122). -/
def ended (op : RegOp) (a8 : Addr8) (x y : Byte) (v : View) : View :=
  ((((op.started v).exchanged (op.command a8) x).inPhase op.dataPhase none).exchanged op.data y).closed.inPhase .idle none
    |>.answered .ok (op.answer y)

end RegOp

/-- R115 and R118. -/
theorem Resting.start {cfg : Cfg} {v : View} {s : State} {w : Word24} {ws : List Word24} {a8 : Addr8} (op : RegOp)
    (h : Resting v s) (hc : v.csN = 1) (ha : a8.toNat < 128) (hq : v.reqs = w :: ws) (hw : encode (op.request a8) = .hreq w) :
    Does cfg s .accept (Queued (op.started v) (op.command a8)) := by
  obtain ⟨hi, hr, rfl⟩ := id h
  obtain ⟨-, -, -, ht, -, hwd⟩ := hi.of_idle hr.2
  cases op with
  | read =>
    refine h.accept hq hw (exec_rdreg_deselected (s := hostAdvance s) hr hc ha ht) fun hi' => ⟨hi', ?_, rfl⟩
    rw [RegOp.started, RegOp.latch, View.inPhase_of_wdata (v := (view s).issued.opened) _ hwd]; rfl
  | write d =>
    exact h.accept hq hw (exec_wrreg_deselected (s := hostAdvance s) d hr hc ha ht) fun hi' => ⟨hi', rfl, rfl⟩

/-- R94 with R116 and R119. -/
theorem Replied.end_cmd {cfg : Cfg} {v : View} {x : Byte} {s : State} (op : RegOp) (h : Replied v x s)
    (hp : v.phase = op.cmdPhase) (hl : v.wdata = op.latch) :
    Does cfg s .complete (Queued (v.inPhase op.dataPhase none) op.data) := by
  obtain ⟨hi, rfl, hn, hb⟩ := h
  obtain ⟨-, -, -, ht, -⟩ := hi.of_rxne hn
  have he : enabled cfg s .complete = true := (enabled_replied_iff hi hn).mpr rfl
  cases op with
  | read =>
    refine .of_perform hi he (perform_complete_rdCmd hp hb ht) fun hi' => ⟨hi', ?_, rfl⟩
    rw [View.inPhase_of_wdata (v := view s) (w := none) _ hl]; rfl
  | write d => exact .of_perform hi he (perform_complete_wrCmd hp hb ht hl) fun hi' => ⟨hi', rfl, rfl⟩

/-- R94 with R117 and R120. -/
theorem Replied.end_data {cfg : Cfg} {v : View} {y : Byte} {s : State} (op : RegOp) (h : Replied v y s)
    (hp : v.phase = op.dataPhase) (hl : v.wdata = none) :
    Does cfg s .complete (Resting ((v.closed.inPhase .idle none).answered .ok (op.answer y))) := by
  obtain ⟨hi, rfl, hn, hb⟩ := h
  obtain ⟨hbusy, -⟩ := hi.of_rxne hn
  obtain ⟨-, hf, -⟩ := hi.of_busy hbusy
  have he : enabled cfg s .complete = true := (enabled_replied_iff hi hn).mpr rfl
  cases op with
  | read =>
    refine .of_perform hi he (perform_complete_rdData hp hb) fun hi' => ⟨hi', ⟨hf, rfl⟩, ?_⟩
    rw [View.inPhase_of_wdata (v := (view s).closed) _ hl]; rfl
  | write d =>
    refine .of_perform hi he (perform_complete_wrData hp hb) fun hi' => ⟨hi', ⟨hf, rfl⟩, ?_⟩
    rw [View.inPhase_of_wdata (v := (view s).closed) _ hl]; rfl

/-- The byte `o` of the exchange in progress waits for its reply. -/
def Waiting (v : View) (o : Byte) (s : State) : Prop := Queued v o s ∨ Shifting v o s

/-- R37 while an exchange waits. -/
theorem Waiting.busy {v : View} {o : Byte} {s : State} (h : Waiting v o s) :
    StateInv s ∧ view s = v ∧ s.phase ≠ .idle ∧ s.fault = none ∧ s.xout = some o ∧ s.rxne = false := by
  obtain ⟨hi, hv, hb⟩ | ⟨hi, hv, hs⟩ := h
  · obtain ⟨hp, hx, -, -, hn⟩ := hi.of_txbuf hb
    exact ⟨hi, hv, hp, (hi.of_busy hp).2.1, hx, hn⟩
  · obtain ⟨hp, hx, -, -, hn⟩ := hi.of_shifter hs
    exact ⟨hi, hv, hp, (hi.of_busy hp).2.1, hx, hn⟩

/-- R141 and R142. -/
theorem Waiting.timeout {cfg : Cfg} {v : View} {o : Byte} {s : State} (h : Waiting v o s) (hm : cfg.timeoutMode = .hardened) :
    Does cfg s .timeout (Resting (v.timedOut o)) := by
  obtain ⟨hi, rfl, hp, hf, ho, hn⟩ := h.busy
  have he := (enabled_timeout_iff cfg s).mpr ⟨hm, hf, hp, hn⟩
  by_cases hx : (view s).phase = .xfer
  · refine .of_perform hi he (perform_timeout_xfer hx ho) fun hi' => ⟨hi', ⟨hf, rfl⟩, ?_⟩
    rw [View.timedOut, if_pos hx]; rfl
  · refine .of_perform hi he (perform_timeout_register hp hx ho) fun hi' => ⟨hi', ⟨hf, rfl⟩, ?_⟩
    rw [View.timedOut, if_neg hx]; rfl

/-- Where one step of any agent can take an exchange that waits. -/
theorem Waiting.move {cfg : Cfg} {v : View} {o : Byte} {s t : State} {m : Move} (h : Waiting v o s)
    (he : enabled cfg s m = true) (hm : perform m s = .next t) :
    Waiting v o t ∨ (∃ x, Replied (v.exchanged o x) x t) ∨ (cfg.timeoutMode = .hardened ∧ Resting (v.timedOut o) t) := by
  obtain ⟨hi, -, hp, hf, -, hn⟩ := h.busy
  cases m with
  | accept => simp [enabled_accept_of_busy cfg hp] at he
  | complete => simp [enabled_complete_iff, hn] at he
  | stall => cases hm; exact .inl h
  | timeout =>
    obtain ⟨hard, -⟩ := (enabled_timeout_iff cfg s).mp he
    exact .inr (.inr ⟨hard, (h.timeout hard).result hm⟩)
  | txDrain =>
    obtain hq | hs := h
    · exact .inl (.inr ((hq.drain (cfg := cfg)).result hm))
    · obtain ⟨-, -, -, ht, -⟩ := hi.of_shifter hs.shifter
      simp [enabled_txDrain_iff, ht] at he
  | rxDone x =>
    obtain hq | hs := h
    · obtain ⟨-, -, hs, -⟩ := hi.of_txbuf hq.txbuf
      simp [enabled_rxDone_iff, hs] at he
    · exact .inr (.inl ⟨x, (hs.receive (cfg := cfg) x).result hm⟩)

end Sys2Proof.Machine
end

section
/-! Whole requests under any behaviour of ENV (R99, R121, R122, R128, R142): from the ACCEPT to the next phase IDLE. -/

namespace Sys2Proof.Machine

/-- `t` is reached from `s` by enabled steps that take no request, and the request in progress has ended there. -/
def Ends (cfg : Cfg) (s t : State) : Prop :=
  t.phase = .idle ∧ ∃ ms, (∀ m ∈ ms, m ≠ .accept) ∧ runMoves cfg ms s = some t

/-- A run is its first step, enabled and with a next state, and the rest. -/
theorem runMoves_cons {cfg : Cfg} {s t : State} {m : Move} {ms : List Move} (h : runMoves cfg (m :: ms) s = some t) :
    enabled cfg s m = true ∧ ∃ u, perform m s = .next u ∧ runMoves cfg ms u = some t := by
  rw [runMoves] at h
  split at h
  · refine ⟨‹_›, ?_⟩
    split at h
    · exact ⟨_, ‹_›, h⟩
    · cases h
    · cases h
  · cases h

/-- A run goes on after a step that is enabled. -/
theorem runMoves_of_next {cfg : Cfg} {s u : State} {m : Move} (ms : List Move) (he : enabled cfg s m = true)
    (hm : perform m s = .next u) : runMoves cfg (m :: ms) s = runMoves cfg ms u := by
  rw [runMoves, if_pos he, hm]

/-- R90: a block at rest stays there until HOST's next request. -/
theorem Ends.eq_of_resting {cfg : Cfg} {v : View} {s t : State} (h : Resting v s) (hend : Ends cfg s t) : t = s := by
  obtain ⟨-, ms, hno, hrun⟩ := hend
  cases ms with
  | nil => exact (Option.some.inj hrun).symm
  | cons m ms =>
    obtain ⟨he, -⟩ := runMoves_cons hrun
    exact absurd ((enabled_idle_iff h.inv h.ready.2).mp he).1 (hno m (by simp))

/-- With the reply in, the request goes on by COMPLETE. -/
theorem Ends.of_replied {cfg : Cfg} {v : View} {x : Byte} {s t : State} {P : State → Prop} (h : Replied v x s)
    (hd : Does cfg s .complete P) (hend : Ends cfg s t) : ∃ u, P u ∧ Ends cfg u t := by
  obtain ⟨hidle, ms, hno, hrun⟩ := hend
  cases ms with
  | nil =>
    cases hrun
    exact absurd hidle (h.inv.of_rxne h.rxne).1
  | cons m ms =>
    obtain ⟨he, u, hm, hrest⟩ := runMoves_cons hrun
    obtain rfl := (enabled_replied_iff h.inv h.rxne).mp he
    exact ⟨u, hd.result hm, hidle, ms, fun m hmem => hno m (by simp [hmem]), hrest⟩

/-- An exchange that waits ends with a reply, or by a timeout in hardened mode. -/
theorem Ends.of_waiting {cfg : Cfg} {v : View} {o : Byte} {s t : State} (h : Waiting v o s) (hend : Ends cfg s t) :
    (∃ x u, Replied (v.exchanged o x) x u ∧ Ends cfg u t) ∨ (cfg.timeoutMode = .hardened ∧ view t = v.timedOut o) := by
  obtain ⟨hidle, ms, hno, hrun⟩ := hend
  induction ms generalizing s with
  | nil =>
    cases hrun
    obtain ⟨-, -, hp, -⟩ := h.busy
    exact absurd hidle hp
  | cons m ms ih =>
    obtain ⟨he, u, hm, hrest⟩ := runMoves_cons hrun
    have hno' : ∀ m ∈ ms, m ≠ .accept := fun m hmem => hno m (by simp [hmem])
    obtain hwait | ⟨x, hrep⟩ | ⟨hard, hout⟩ := h.move he hm
    · exact ih hwait hno' hrest
    · exact .inl ⟨x, u, hrep, hidle, ms, hno', hrest⟩
    · have hend : Ends cfg u t := ⟨hidle, ms, hno', hrest⟩
      rw [hend.eq_of_resting hout]
      exact .inr ⟨hard, hout.view_eq⟩

/-- A request's first step is its ACCEPT; what follows takes no other request. -/
theorem Ends.of_accept {cfg : Cfg} {s t : State} {ms : List Move} {P : State → Prop} (hd : Does cfg s .accept P)
    (hno : ∀ m ∈ ms, m ≠ .accept) (hrun : runMoves cfg (.accept :: ms) s = some t) (hidle : t.phase = .idle) :
    ∃ u, P u ∧ Ends cfg u t := by
  obtain ⟨-, u, hm, hrest⟩ := runMoves_cons hrun
  exact ⟨u, hd.result hm, hidle, ms, hno, hrest⟩

/-- The outcomes of XFER, by its only exchange. -/
theorem Ends.of_xfer {cfg : Cfg} {v : View} {d : Byte} {s t : State} (h : Queued v d s) (hp : v.phase = .xfer)
    (hend : Ends cfg s t) :
    (∃ x, view t = ((v.exchanged d x).inPhase .idle none).answered .ok (some x)) ∨
    (cfg.timeoutMode = .hardened ∧ view t = v.timedOut d) := by
  obtain ⟨x, u, hrep, hend⟩ | hout := hend.of_waiting (.inl h)
  · obtain ⟨u', hrest, hend⟩ := hend.of_replied hrep (hrep.end_xfer hp)
    rw [hend.eq_of_resting hrest]
    exact .inl ⟨x, hrest.view_eq⟩
  · exact .inr hout

/-- The outcomes of a register transaction, by its two exchanges. -/
theorem Ends.of_transaction {cfg : Cfg} {v : View} {a8 : Addr8} {s t : State} (op : RegOp)
    (h : Queued (op.started v) (op.command a8) s) (hend : Ends cfg s t) :
    (∃ x y, view t = op.ended a8 x y v) ∨
    (cfg.timeoutMode = .hardened ∧
      (view t = (op.started v).timedOut (op.command a8) ∨
        ∃ x, view t = (((op.started v).exchanged (op.command a8) x).inPhase op.dataPhase none).timedOut op.data)) := by
  obtain ⟨x, u, hrep, hend⟩ | ⟨hard, hout⟩ := hend.of_waiting (.inl h)
  · obtain ⟨u', hqueued, hend⟩ := hend.of_replied hrep (hrep.end_cmd op rfl rfl)
    obtain ⟨y, u'', hrep', hend⟩ | ⟨hard, hout⟩ := hend.of_waiting (.inl hqueued)
    · obtain ⟨u''', hrest, hend⟩ := hend.of_replied hrep' (hrep'.end_data op rfl rfl)
      rw [hend.eq_of_resting hrest]
      exact .inl ⟨x, y, hrest.view_eq⟩
    · exact .inr ⟨hard, .inr ⟨x, hout⟩⟩
  · exact .inr ⟨hard, .inl hout⟩

/-- R142 for XFER: its window stays open. -/
theorem timedOut_xfer {v : View} (o : Byte) (hp : v.phase = .xfer) :
    v.timedOut o = ((v.aborted o).inPhase .idle none).answered .busTimeout none := by
  rw [View.timedOut, if_pos hp]

/-- R142 for a register transaction: its window is closed. -/
theorem timedOut_register {v : View} (o : Byte) (hp : v.phase ≠ .xfer) :
    v.timedOut o = ((v.aborted o).closed.inPhase .idle none).answered .busTimeout none := by
  rw [View.timedOut, if_neg hp]

/-- Neither phase of a register transaction is XFER's. -/
theorem RegOp.phases_ne_xfer (op : RegOp) : op.cmdPhase ≠ .xfer ∧ op.dataPhase ≠ .xfer := by
  cases op <;> exact ⟨nofun, nofun⟩

/-- The logs of a register transaction that has ended, in any of the three ways. -/
theorem Ends.transaction_logs {cfg : Cfg} {v : View} {a8 : Addr8} {s t : State} (op : RegOp)
    (h : Queued (op.started v) (op.command a8) s) (hend : Ends cfg s t) :
    ∃ x y : Byte,
      (t.trace = v.trace ++ [BusEvent.csAssert, .xchg (op.command a8) x, .xchg op.data y, .csDeassert] ∧
        t.rspLog = v.rspLog ++ [Response.mk .ok (op.answer y)]) ∨
      (cfg.timeoutMode = .hardened ∧ t.rspLog = v.rspLog ++ [Response.mk .busTimeout none] ∧
        (t.trace = v.trace ++ [BusEvent.csAssert, .xchgAbort (op.command a8), .csDeassert] ∨
         t.trace = v.trace ++ [BusEvent.csAssert, .xchg (op.command a8) x, .xchgAbort op.data, .csDeassert])) := by
  obtain ⟨hcmd, hdata⟩ := op.phases_ne_xfer
  obtain ⟨x, y, hv⟩ | ⟨hard, hv | ⟨x, hv⟩⟩ := hend.of_transaction op h
  · have htrace : t.trace = (op.ended a8 x y v).trace := congrArg View.trace hv
    have hlog : t.rspLog = v.rspLog ++ [⟨.ok, op.answer y⟩] := congrArg View.rspLog hv
    exact ⟨x, y, .inl ⟨by simp [htrace, RegOp.ended, RegOp.started], hlog⟩⟩
  · rw [timedOut_register _ hcmd] at hv
    have htrace := congrArg View.trace hv
    have hlog : t.rspLog = v.rspLog ++ [⟨.busTimeout, none⟩] := congrArg View.rspLog hv
    exact ⟨0, 0, .inr ⟨hard, hlog, .inl (htrace.trans (by simp [RegOp.started]))⟩⟩
  · rw [timedOut_register _ hdata] at hv
    have htrace := congrArg View.trace hv
    have hlog : t.rspLog = v.rspLog ++ [⟨.busTimeout, none⟩] := congrArg View.rspLog hv
    exact ⟨x, 0, .inr ⟨hard, hlog, .inr (htrace.trans (by simp [RegOp.started]))⟩⟩

/-- A ready block, seen by itself. -/
theorem Resting.of_ready {s : State} (hi : StateInv s) (hr : Ready s) : Resting (view s) s := ⟨hi, hr, rfl⟩

/-- Settles O45: the read transaction's logs. -/
theorem readTransactionOutcomes : Obligations.ReadTransactionOutcomes := by
  intro cfg s t a8 ws ms hi hr hc ha hq hno hrun hidle
  obtain ⟨u, hqueued, hend⟩ := Ends.of_accept ((Resting.of_ready hi hr).start .read hc ha hq (encode_rdreg a8)) hno hrun hidle
  exact hend.transaction_logs .read hqueued

/-- Settles O46: the write transaction's logs. -/
theorem writeTransactionOutcomes : Obligations.WriteTransactionOutcomes := by
  intro cfg s t a8 d ws ms hi hr hc ha hq hno hrun hidle
  obtain ⟨u, hqueued, hend⟩ := Ends.of_accept ((Resting.of_ready hi hr).start (.write d) hc ha hq (encode_wrreg a8 d)) hno hrun hidle
  exact hend.transaction_logs (.write d) hqueued

/-- Settles O47: the outcomes of XFER's exchange, with the window left as it was. -/
theorem primitiveExchangeOutcomes : Obligations.PrimitiveExchangeOutcomes := by
  intro cfg s t d ws ms hi hr hc hq hno hrun hidle
  obtain ⟨u, hqueued, hend⟩ := Ends.of_accept ((Resting.of_ready hi hr).xfer hc hq (encode_xfer d)) hno hrun hidle
  obtain ⟨x, hv⟩ | ⟨hard, hv⟩ := hend.of_xfer hqueued rfl
  · exact ⟨(congrArg View.csN hv).trans hc, x, .inl ⟨congrArg View.trace hv, congrArg View.rspLog hv⟩⟩
  · rw [timedOut_xfer _ rfl] at hv
    exact ⟨(congrArg View.csN hv).trans hc, 0, .inr ⟨hard, congrArg View.trace hv, congrArg View.rspLog hv⟩⟩

end Sys2Proof.Machine
end

section
/-! Whole requests under given ENV bytes: the primitive form against the codec (R123), and the test double EchoDev (R127). -/

namespace Sys2Proof.Machine

/-- The run of the moves `ms` from `s` leads to a state with `Q`. -/
def Runs (cfg : Cfg) (ms : List Move) (s : State) (Q : State → Prop) : Prop :=
  ∃ t, runMoves cfg ms s = some t ∧ Q t

theorem Runs.nil {cfg : Cfg} {s : State} {Q : State → Prop} (h : Q s) : Runs cfg [] s Q := ⟨s, rfl, h⟩

/-- Triples chain to a run. -/
theorem Runs.cons {cfg : Cfg} {s : State} {m : Move} {ms : List Move} {P Q : State → Prop} (hd : Does cfg s m P)
    (h : ∀ u, P u → Runs cfg ms u Q) : Runs cfg (m :: ms) s Q := by
  obtain ⟨he, u, hm, hP⟩ := hd
  obtain ⟨t, ht, hQ⟩ := h u hP
  exact ⟨t, (runMoves_of_next ms he hm).trans ht, hQ⟩

/-- An exchange from its queued byte to its reply. -/
theorem Runs.exchange {cfg : Cfg} {v : View} {o : Byte} {s : State} {ms : List Move} {Q : State → Prop} (x : Byte)
    (hq : Queued v o s) (h : ∀ u, Replied (v.exchanged o x) x u → Runs cfg ms u Q) :
    Runs cfg (.txDrain :: .rxDone x :: ms) s Q :=
  .cons hq.drain fun _ hs => .cons (hs.receive x) h

/-- After XFER `d` with the reply `x` (R98, R99). -/
def View.transceived (d x : Byte) (v : View) : View :=
  (((v.issued.inPhase .xfer none).exchanged d x).inPhase .idle none).answered .ok (some x)

/-- XFER, from its ACCEPT to its response. -/
theorem Runs.xfer {cfg : Cfg} {v : View} {s : State} {w : Word24} {ws : List Word24} {ms : List Move} {Q : State → Prop}
    {d : Byte} (x : Byte) (hs : Resting v s) (hc : v.csN = 0) (hq : v.reqs = w :: ws) (hw : encode (.xfer d) = .hreq w)
    (h : ∀ u, Resting (v.transceived d x) u → Runs cfg ms u Q) :
    Runs cfg (.accept :: .txDrain :: .rxDone x :: .complete :: ms) s Q :=
  .cons (hs.xfer hc hq hw) fun _ hqueued => .exchange x hqueued fun _ hrep => .cons (hrep.end_xfer rfl) h

/-- A register transaction, from its ACCEPT to its response. -/
theorem Runs.transaction {cfg : Cfg} {v : View} {s : State} {w : Word24} {ws : List Word24} {ms : List Move} {Q : State → Prop}
    {a8 : Addr8} (op : RegOp) (x y : Byte) (hs : Resting v s) (hc : v.csN = 1) (ha : a8.toNat < 128) (hq : v.reqs = w :: ws)
    (hw : encode (op.request a8) = .hreq w) (h : ∀ u, Resting (op.ended a8 x y v) u → Runs cfg ms u Q) :
    Runs cfg (.accept :: .txDrain :: .rxDone x :: .complete :: .txDrain :: .rxDone y :: .complete :: ms) s Q :=
  .cons (hs.start op hc ha hq hw) fun _ hqueued => .exchange x hqueued fun _ hrep =>
    .cons (hrep.end_cmd op rfl rfl) fun _ hqueued => .exchange y hqueued fun _ hrep =>
      .cons (hrep.end_data op rfl rfl) h

/-- R121 and R122: the bus events of a register transaction. -/
theorem RegOp.ended_trace (op : RegOp) (a8 : Addr8) (x y : Byte) (v : View) :
    (op.ended a8 x y v).trace = v.trace ++ [BusEvent.csAssert, .xchg (op.command a8) x, .xchg op.data y, .csDeassert] := by
  simp [RegOp.ended, RegOp.started]

/-- The view after SEL; XFER `c`; XFER `d`; DESEL with the replies `x` and `y`. -/
def View.primitives (c d x y : Byte) (v : View) : View :=
  ((v.issued.opened.answered .ok none).transceived c x).transceived d y |>.issued.closed.answered .ok none

/-- The four-request form of R123. -/
theorem runs_primitives (cfg : Cfg) {v : View} {s : State} (c d x y : Byte) (hs : Resting v s) (hc : v.csN = 1)
    (hq : v.reqs = [0x100000, 0x300000#24 ||| c.setWidth 24, 0x300000#24 ||| d.setWidth 24, 0x200000]) :
    Runs cfg [.accept, .accept, .txDrain, .rxDone x, .complete, .accept, .txDrain, .rxDone y, .complete, .accept] s
      (Resting (v.primitives c d x y)) := by
  have hsel : encode .sel = .hreq 0x100000 := by decide
  have hdesel : encode .desel = .hreq 0x200000 := by decide
  have hafter : v.issued.reqs = [0x300000#24 ||| c.setWidth 24, 0x300000#24 ||| d.setWidth 24, 0x200000] := by simp [hq]
  exact .cons (hs.sel hc hq hsel) fun _ h => .xfer x h rfl hafter (encode_xfer c) fun _ h =>
    .xfer y h rfl (congrArg List.tail hafter) (encode_xfer d) fun _ h =>
      .cons (h.desel rfl (congrArg (List.tail ∘ List.tail) hafter) hdesel) fun _ h => .nil h

/-- The address field of a register address. -/
theorem regAddr_setWidth (a : Addr7) : regAddr (a.setWidth 8) = a :=
  BitVec.setWidth_setWidth_of_le a (by decide)

theorem addr8_toNat_lt (a : Addr7) : (a.setWidth 8 : Addr8).toNat < 128 := by
  have ha := a.isLt
  rw [BitVec.toNat_setWidth]; omega

theorem addr8_setWidth (a : Addr7) : (a.setWidth 8 : Addr8).setWidth 24 = a.setWidth 24 := by
  revert a; decide

/-- R123 for either register transaction. -/
theorem primitives_match (cfg : Cfg) {s : State} {w : Word24} (op : RegOp) (a : Addr7) (x y : Byte) (hi : StateInv s)
    (hr : Ready s) (hc : s.csN = 1) (hw : encode (op.request (a.setWidth 8)) = .hreq w) :
    ∃ t u,
      runMoves cfg [.accept, .accept, .txDrain, .rxDone x, .complete, .accept, .txDrain, .rxDone y, .complete, .accept]
        { s with reqs := [0x100000, 0x300000#24 ||| (cmd op.rw a).setWidth 24, 0x300000#24 ||| op.data.setWidth 24, 0x200000] } =
          some t ∧
      runMoves cfg [.accept, .txDrain, .rxDone x, .complete, .txDrain, .rxDone y, .complete] { s with reqs := [w] } = some u ∧
      t.trace = u.trace ∧
      t.rspLog = s.rspLog ++ [Response.mk .ok none, ⟨.ok, some x⟩, ⟨.ok, some y⟩, ⟨.ok, none⟩] ∧
      u.rspLog = s.rspLog ++ [Response.mk .ok (op.answer y)] := by
  have hrest (qs : List Word24) : Resting (view { s with reqs := qs }) { s with reqs := qs } := ⟨hi, hr, rfl⟩
  obtain ⟨t, ht, -, -, htv⟩ := runs_primitives cfg (cmd op.rw a) op.data x y (hrest _) hc rfl
  obtain ⟨u, hu, -, -, huv⟩ :=
    Runs.transaction (cfg := cfg) op x y (hrest [w]) hc (addr8_toNat_lt a) rfl hw fun _ h => .nil h
  have hcmd : op.command (a.setWidth 8) = cmd op.rw a := by rw [RegOp.command, regAddr_setWidth]
  refine ⟨t, u, ht, hu, ?_, ?_, congrArg View.rspLog huv⟩
  · rw [show u.trace = _ from (congrArg View.trace huv).trans (RegOp.ended_trace ..), hcmd]
    exact (congrArg View.trace htv).trans (by simp [View.primitives, View.transceived, view])
  · exact (congrArg View.rspLog htv).trans (by simp [View.primitives, View.transceived, view])

/-- Settles O48: by the intent; a read sends the dummy byte. -/
theorem primitivesMatchTheCodec : Obligations.PrimitivesMatchTheCodec := by
  intro cfg s a rw d x y hi hr hc hd
  by_cases hrw : rw = 1
  · subst hrw
    obtain rfl := hd rfl
    have hw := encode_rdreg (a.setWidth 8)
    rw [addr8_setWidth] at hw
    rw [if_pos rfl, if_pos rfl]
    exact primitives_match cfg .read a x y hi hr hc hw
  · have hw := encode_wrreg (a.setWidth 8) d
    rw [addr8_setWidth] at hw
    rw [if_neg hrw, if_neg hrw, csN_eq_zero hrw]
    exact primitives_match cfg (.write d) a x y hi hr hc hw

/-- `EchoDev` answers each stage with the step that moves it on. -/
theorem echoMove_resting {cfg : Cfg} {v : View} {s : State} {w : Word24} {ws : List Word24} (e : EchoDev) (h : Resting v s)
    (hq : v.reqs = w :: ws) : echoMove cfg s e = some .accept := by
  obtain ⟨hi, hr, rfl⟩ := h
  have hq' : s.reqs = w :: ws := hq
  have he : enabled cfg s .accept = true := (enabled_idle_iff hi hr.2).mpr ⟨rfl, hr.1, by simp [hq']⟩
  rw [echoMove, if_pos he]

theorem echoMove_queued {cfg : Cfg} {v : View} {o : Byte} {s : State} (e : EchoDev) (h : Queued v o s) :
    echoMove cfg s e = some .txDrain := by
  obtain ⟨hp, -, hs, ht, hn⟩ := h.inv.of_txbuf h.txbuf
  have hcom : enabled cfg s .complete = false := by simp [enabled, hn]
  have hdrain : enabled cfg s .txDrain = true := (enabled_txDrain_iff cfg s).mpr ⟨ht, by simp [h.txbuf], hs⟩
  simp [echoMove, enabled_accept_of_busy cfg hp, hcom, hdrain]

theorem echoMove_shifting {cfg : Cfg} {v : View} {o : Byte} {s : State} (e : EchoDev) (h : Shifting v o s) :
    echoMove cfg s e = some (.rxDone (echoReply e)) := by
  obtain ⟨hp, -, -, ht, hn⟩ := h.inv.of_shifter h.shifter
  have hcom : enabled cfg s .complete = false := by simp [enabled, hn]
  have hdrain : enabled cfg s .txDrain = false := by simp [enabled, ht]
  simp [echoMove, enabled_accept_of_busy cfg hp, hcom, hdrain, h.shifter]

theorem echoMove_replied {cfg : Cfg} {v : View} {x : Byte} {s : State} (e : EchoDev) (h : Replied v x s) :
    echoMove cfg s e = some .complete := by
  obtain ⟨hp, -⟩ := h.inv.of_rxne h.rxne
  simp [echoMove, enabled_accept_of_busy cfg hp, (enabled_replied_iff (cfg := cfg) h.inv h.rxne).mpr rfl]

/-- One step with `EchoDev`, by its triple. -/
theorem echoRun_succ {cfg : Cfg} {s : State} {e : EchoDev} {m : Move} {P : State → Prop} (n : Nat)
    (he : echoMove cfg s e = some m) (hd : Does cfg s m P) :
    ∃ u, P u ∧ echoRun cfg (n + 1) (s, e) = echoRun cfg n (u, echoSees m s u e) := by
  obtain ⟨-, u, hm, hP⟩ := hd
  refine ⟨u, hP, ?_⟩
  rw [echoRun, he]
  simp only [hm]

/-- An exchange with `EchoDev`. -/
theorem echoRun_exchange {cfg : Cfg} {v : View} {o : Byte} {s : State} (n : Nat) (e : EchoDev) (h : Queued v o s) :
    ∃ u, Replied (v.exchanged o (echoReply e)) (echoReply e) u ∧
      echoRun cfg (n + 2) (s, e) = echoRun cfg n (u, echoAfter o e) := by
  obtain ⟨u, hs, hrun⟩ := echoRun_succ (n + 1) (echoMove_queued (cfg := cfg) e h) h.drain
  obtain ⟨u', hrep, hrun'⟩ := echoRun_succ n (echoMove_shifting (cfg := cfg) e hs) (hs.receive (echoReply e))
  refine ⟨u', hrep, ?_⟩
  have hsees : echoSees (.rxDone (echoReply e)) u u' e = echoAfter o e := by simp [echoSees, hs.shifter]
  rw [hrun, ← hsees]
  exact hrun'

/-- What `EchoDev` is after a window with the bytes `c` and `d`. -/
def echoWindow (c d : Byte) (e : EchoDev) : EchoDev := echoAfter d (echoAfter c (echoSelect e))

/-- What `EchoDev` replies to the second byte of a window that starts with `c`. -/
def echoAnswer (c : Byte) (e : EchoDev) : Byte := echoReply (echoAfter c (echoSelect e))

/-- A register transaction with `EchoDev`: seven steps. -/
theorem echoRun_transaction {cfg : Cfg} {v : View} {s : State} {w : Word24} {ws : List Word24} {a8 : Addr8} (op : RegOp)
    (n : Nat) (e : EchoDev) (h : Resting v s) (hc : v.csN = 1) (ha : a8.toNat < 128) (hq : v.reqs = w :: ws)
    (hw : encode (op.request a8) = .hreq w) :
    ∃ x u, Resting (op.ended a8 x (echoAnswer (op.command a8) e) v) u ∧
      echoRun cfg (n + 7) (s, e) = echoRun cfg n (u, echoWindow (op.command a8) op.data e) := by
  obtain ⟨u₁, hqueued, hrun₁⟩ := echoRun_succ (n + 6) (echoMove_resting (cfg := cfg) e h hq) (h.start op hc ha hq hw)
  have hsees : echoSees .accept s u₁ e = echoSelect e :=
    if_pos ⟨(congrArg View.csN h.view_eq).trans hc, congrArg View.csN hqueued.view_eq⟩
  rw [hsees] at hrun₁
  obtain ⟨u₂, hrep, hrun₂⟩ := echoRun_exchange (cfg := cfg) (n + 4) (echoSelect e) hqueued
  obtain ⟨u₃, hqueued', hrun₃⟩ := echoRun_succ (n + 3) (echoMove_replied (cfg := cfg) _ hrep) (hrep.end_cmd op rfl rfl)
  obtain ⟨u₄, hrep', hrun₄⟩ := echoRun_exchange (cfg := cfg) (n + 1) (echoAfter (op.command a8) (echoSelect e)) hqueued'
  obtain ⟨u₅, hrest, hrun₅⟩ := echoRun_succ n (echoMove_replied (cfg := cfg) _ hrep') (hrep'.end_data op rfl rfl)
  exact ⟨_, u₅, hrest, hrun₁.trans (hrun₂.trans (hrun₃.trans (hrun₄.trans hrun₅)))⟩

/-- The registers of `EchoDev` after a window whose command it reads as a read. -/
theorem echoWindow_regs_read {c d : Byte} (e : EchoDev) (hc : wireRw c = 1) : (echoWindow c d e).regs = e.regs := by
  simp [echoWindow, echoAfter, echoSelect, hc]

/-- The register it writes otherwise. -/
theorem echoWindow_regs_write {c d : Byte} (e : EchoDev) (hc : wireRw c = 0) :
    (echoWindow c d e).regs (wireAddr c) = d := by
  simp [echoWindow, echoAfter, echoSelect, echoStore, hc]

/-- The reply to a command that it reads as a read. -/
theorem echoAnswer_read {c : Byte} (e : EchoDev) (hc : wireRw c = 1) : echoAnswer c e = e.regs (wireAddr c) := by
  simp [echoAnswer, echoReply, echoAfter, echoSelect, hc]

/-- How the device reads a register transaction's command byte (R77, R78). -/
theorem wireAddr_command (op : RegOp) (a8 : Addr8) : wireAddr (op.command a8) = a8.setWidth 6 := by
  rw [RegOp.command, wireAddr_cmd, regAddr_low]

theorem wireRw_command_read (a8 : Addr8) : wireRw (RegOp.read.command a8) = 1 := by
  rw [RegOp.command, wireRw_cmd]; exact one_or_bit _

theorem wireRw_command_write_low {a8 : Addr8} (d : Byte) (h : a8.toNat < 64) : wireRw ((RegOp.write d).command a8) = 0 := by
  rw [RegOp.command, wireRw_cmd_of_lt ((regAddr_toNat (by omega)).trans_lt h)]; rfl

theorem wireRw_command_write_high {a8 : Addr8} (d : Byte) (hlo : 64 ≤ a8.toNat) (hhi : a8.toNat < 128) :
    wireRw ((RegOp.write d).command a8) = 1 := by
  rw [RegOp.command, RegOp.rw, Config.rwWrite, cmd_write_high (hlo.trans_eq (regAddr_toNat hhi).symm), wireRw_wcmdByte]

/-- WRREG and then RDREG of one address with `EchoDev`. -/
theorem echoRun_write_read {cfg : Cfg} {s : State} {a8 : Addr8} {d : Byte} (e : EchoDev) (hi : StateInv s) (hr : Ready s)
    (hc : s.csN = 1) (ha : a8.toNat < 128)
    (hq : s.reqs = [0x500000#24 ||| (a8.setWidth 24 <<< 8) ||| d.setWidth 24, 0x400000#24 ||| (a8.setWidth 24 <<< 8)]) :
    let written := echoWindow ((RegOp.write d).command a8) d e
    (echoRun cfg 14 (s, e)).1.phase = .idle ∧
    (echoRun cfg 14 (s, e)).2.regs = written.regs ∧
    (echoRun cfg 14 (s, e)).1.rspLog = s.rspLog ++ [Response.mk .ok none, ⟨.ok, some (written.regs (a8.setWidth 6))⟩] := by
  intro written
  obtain ⟨x, u, hu, hrun⟩ :=
    echoRun_transaction (cfg := cfg) (.write d) 7 e (.of_ready hi hr) hc ha hq (encode_wrreg a8 d)
  obtain ⟨x', u', hu', hrun'⟩ :=
    echoRun_transaction (cfg := cfg) .read 0 written hu rfl ha (congrArg List.tail hq) (encode_rdreg a8)
  rw [echoAnswer_read _ (wireRw_command_read a8), wireAddr_command] at hu'
  rw [hrun.trans hrun', echoRun]
  refine ⟨hu'.ready.2, echoWindow_regs_read _ (wireRw_command_read a8), (congrArg View.rspLog hu'.view_eq).trans ?_⟩
  exact List.append_assoc ..

/-- Settles O49: the write is seen as a write, so the register read back holds the value. -/
theorem echoDeviceRoundTrip : Obligations.EchoDeviceRoundTrip := by
  intro cfg s e a8 d hi hr hc ha hq
  obtain ⟨hp, -, hlog⟩ := echoRun_write_read (cfg := cfg) e hi hr hc (by omega) hq
  refine ⟨hp, hlog.trans ?_⟩
  rw [← wireAddr_command (.write d), echoWindow_regs_write e (wireRw_command_write_low d ha)]

/-- Settles O50: the write is seen as a read, so no register changes. -/
theorem echoDeviceLosesHighWrites : Obligations.EchoDeviceLosesHighWrites := by
  intro cfg s e a8 d hi hr hc hlo hhi hq
  obtain ⟨-, hregs, hlog⟩ := echoRun_write_read (cfg := cfg) e hi hr hc hhi hq
  rw [echoWindow_regs_read e (wireRw_command_write_high d hlo hhi)] at hregs hlog
  exact ⟨hregs, hlog⟩

end Sys2Proof.Machine
end

section
/-! Every request ends (R94, R102, R143, R170): the number of steps that a request in progress still needs goes down with each step but
ENV_STALL, so a run that never gets idle stalls for ever, against the fairness of ENV. -/

namespace Sys2Proof.Machine

/-- The steps from the stage of the exchange in progress to its COMPLETE: the drain, the reply, COMPLETE. -/
def exchangeLeft (s : State) : Nat := if s.rxne then 1 else if s.txe then 2 else 3

/-- The steps of the exchange that follows: a register transaction's first exchange has another after it. -/
def laterSteps : Phase → Nat
  | .rdCmd | .wrCmd => 3
  | .idle | .xfer | .rdData | .wrData => 0

/-- The steps that the request in progress still needs. -/
def stepsLeft (s : State) : Nat := if s.phase = .idle then 0 else exchangeLeft s + laterSteps s.phase

theorem exchangeLeft_bounds (s : State) : 1 ≤ exchangeLeft s ∧ exchangeLeft s ≤ 3 := by
  unfold exchangeLeft; split_ifs <;> omega

theorem stepsLeft_idle {s : State} (hp : s.phase = .idle) : stepsLeft s = 0 := if_pos hp

theorem stepsLeft_busy {s : State} (hp : s.phase ≠ .idle) : stepsLeft s = exchangeLeft s + laterSteps s.phase := if_neg hp

theorem stepsLeft_pos {s : State} (hp : s.phase ≠ .idle) : 0 < stepsLeft s := by
  obtain ⟨hpos, -⟩ := exchangeLeft_bounds s
  rw [stepsLeft_busy hp]; omega

theorem stepsLeft_le_six {s : State} (hp : s.phase ≠ .idle) : stepsLeft s ≤ 6 := by
  obtain ⟨-, hle⟩ := exchangeLeft_bounds s
  have hlater : laterSteps s.phase ≤ 3 := by cases s.phase <;> decide
  rw [stepsLeft_busy hp]; omega

/-- Of a request in progress, every step but ENV_STALL leaves fewer steps. -/
theorem MoveRule.stepsLeft_lt {s t : State} {m : Move} (h : MoveRule s m t) (hi : StateInv s) (hp : s.phase ≠ .idle)
    (hm : m ≠ .stall) : stepsLeft t < stepsLeft s := by
  cases h
  case illegal hidle _ | breach hidle _ | sel hidle _ _ | desel hidle _ _ | invalidAddress hidle _ _ _ |
      xfer hidle _ _ _ | rdreg hidle _ _ _ _ | wrreg hidle _ _ _ _ => exact absurd hidle hp
  case endXfer | endRdData | endWrData | timeoutXfer | timeoutReg => exact (stepsLeft_idle rfl).trans_lt (stepsLeft_pos hp)
  case endRdCmd hn hphase _ _ | endWrCmd hn hphase _ _ _ =>
    rw [stepsLeft_busy hp, hphase]
    simp [stepsLeft, exchangeLeft, laterSteps, hn]
  case drain b ht hb _ =>
    obtain ⟨-, -, -, -, hn⟩ := hi.of_txbuf hb
    rw [stepsLeft_busy hp, stepsLeft_busy (s := drainTx b s) hp]
    simp [exchangeLeft, ht, hn]
  case receive o inb hs =>
    obtain ⟨-, -, -, ht, hn⟩ := hi.of_shifter hs
    rw [stepsLeft_busy hp, stepsLeft_busy (s := finishRx o inb s) hp]
    simp [exchangeLeft, ht, hn]
  case stall => exact absurd rfl hm

/-- Any list of at least `n` steps that are no ENV_STALL ends a request that needs at most `n`. -/
theorem idle_within {cfg : Cfg} {s t : State} {ms : List Move} {n : Nat} (hi : StateInv s) (hle : stepsLeft s ≤ n)
    (hno : ∀ m ∈ ms, m ≠ .stall) (hlen : n ≤ ms.length) (hrun : runMoves cfg ms s = some t) :
    ∃ k u, k ≤ n ∧ runMoves cfg (ms.take k) s = some u ∧ u.phase = .idle := by
  by_cases hp : s.phase = .idle
  case pos => exact ⟨0, s, Nat.zero_le n, rfl, hp⟩
  have hpos := stepsLeft_pos hp
  induction ms generalizing s n with
  | nil => rw [List.length_nil] at hlen; omega
  | cons m ms ih =>
    obtain ⟨he, u, hm, hrest⟩ := runMoves_cons hrun
    have hrule := move_of_enabled he hm
    have hlt := hrule.stepsLeft_lt hi hp (hno m (by simp))
    have hno' : ∀ m ∈ ms, m ≠ .stall := fun m hmem => hno m (by simp [hmem])
    have hlen' : n - 1 ≤ ms.length := by rw [List.length_cons] at hlen; omega
    by_cases hpu : u.phase = .idle
    · exact ⟨1, u, by omega, runMoves_of_next [] he hm, hpu⟩
    · obtain ⟨k, u', hk, hrun', hidle⟩ :=
        ih (hrule.keeps_stateInv hi) (by omega : stepsLeft u ≤ n - 1) hno' hlen' hrest hpu (stepsLeft_pos hpu)
      exact ⟨k + 1, u', by omega, (runMoves_of_next (ms.take k) he hm).trans hrun', hidle⟩

/-- Settles O54. -/
theorem requestEndsWithinSixSteps : Obligations.RequestEndsWithinSixSteps := fun _ _ _ _ hi hp hno hlen hrun =>
  idle_within hi (stepsLeft_le_six hp) hno hlen hrun

/-- What a complete run does at each point. -/
theorem isRun_cases {cfg : Cfg} {run : Nat → State} {moves : Nat → Option Move} (h : IsRun cfg run moves) (n : Nat) :
    (∃ m, moves n = some m ∧ enabled cfg (run n) m = true ∧ perform m (run n) = .next (run (n + 1))) ∨
    ((∀ m, enabled cfg (run n) m = false) ∧ run (n + 1) = run n) := by
  have hn := h n
  split at hn
  case h_1 m hm => exact .inl ⟨m, hm, hn⟩
  case h_2 => exact .inr hn

/-- R37 holds along a run. -/
theorem isRun_stateInv {cfg : Cfg} {run : Nat → State} {moves : Nat → Option Move} (h : IsRun cfg run moves)
    (hi : StateInv (run 0)) (n : Nat) : StateInv (run n) := by
  induction n with
  | zero => exact hi
  | succ n ih =>
    obtain ⟨m, -, he, hm⟩ | ⟨-, hsame⟩ := isRun_cases h n
    · exact (move_of_enabled he hm).keeps_stateInv ih
    · rw [hsame]; exact ih

/-- While a request is in progress, a run stalls or gets nearer to its end. -/
theorem isRun_busy_cases {cfg : Cfg} {run : Nat → State} {moves : Nat → Option Move} (h : IsRun cfg run moves)
    (hi : StateInv (run 0)) {n : Nat} (hp : (run n).phase ≠ .idle) :
    (moves n = some .stall ∧ run (n + 1) = run n) ∨ stepsLeft (run (n + 1)) < stepsLeft (run n) := by
  have hin := isRun_stateInv h hi n
  obtain ⟨m, hmv, he, hm⟩ | ⟨hno, -⟩ := isRun_cases h n
  · by_cases hs : m = .stall
    · subst hs
      have hsame : run n = run (n + 1) := Host.Outcome.next.inj hm
      exact .inl ⟨hmv, hsame.symm⟩
    · exact .inr ((move_of_enabled he hm).stepsLeft_lt hin hp hs)
  · obtain ⟨m, he⟩ := exists_step_of_busy cfg hin hp
    simp [hno] at he

/-- A sequence of numbers takes its least value from `n` on somewhere. -/
theorem exists_least_from (f : Nat → Nat) (n : Nat) : ∃ N, n ≤ N ∧ ∀ k, n ≤ k → f N ≤ f k :=
  have hne : (Set.Ici n).Nonempty := Set.nonempty_Ici
  ⟨Function.argminOn f (Set.Ici n) hne, Function.argminOn_mem f _ hne, fun _ hk => Function.argminOn_le f _ hk⟩

/-- A run that is never idle from `n` on stands in one state and stalls, from some point on. -/
theorem stalls_of_never_idle {cfg : Cfg} {run : Nat → State} {moves : Nat → Option Move} (h : IsRun cfg run moves)
    (hi : StateInv (run 0)) {n : Nat} (hbusy : ∀ k, n ≤ k → (run k).phase ≠ .idle) :
    ∃ N, n ≤ N ∧ ∀ k, N ≤ k → moves k = some .stall ∧ run k = run N := by
  obtain ⟨N, hN, hmin⟩ := exists_least_from (fun k => stepsLeft (run k)) n
  have hstall (k : Nat) (hk : N ≤ k) (hsame : run k = run N) : moves k = some .stall ∧ run (k + 1) = run N := by
    obtain ⟨hmv, hstay⟩ | hlt := isRun_busy_cases h hi (hbusy k (hN.trans hk))
    · exact ⟨hmv, hstay.trans hsame⟩
    · rw [hsame] at hlt
      exact absurd (hmin (k + 1) (by omega)) (not_le.mpr hlt)
  have hsame (k : Nat) (hk : N ≤ k) : run k = run N := by
    induction k, hk using Nat.le_induction with
    | base => rfl
    | succ k hk ih => exact (hstall k hk ih).2
  exact ⟨N, hN, fun k hk => ⟨(hstall k hk (hsame k hk)).1, hsame k hk⟩⟩

/-- A weakly fair step is not enabled in a state where the run stalls for ever. -/
theorem not_enabled_of_stalls {cfg : Cfg} {p : Move → Prop} {run : Nat → State} {moves : Nat → Option Move} {N : Nat} {m : Move}
    (hfair : WeaklyFair cfg p run moves) (hstall : ∀ k, N ≤ k → moves k = some .stall ∧ run k = run N) (hp : p m)
    (hnot : ¬ p .stall) : enabled cfg (run N) m = false := by
  refine Bool.eq_false_iff.mpr fun he => ?_
  obtain ⟨k, hk, m', hp', hmv⟩ := hfair N fun k hk => ⟨m, hp, by rw [(hstall k hk).2]; exact he⟩
  obtain rfl := Option.some.inj ((hstall k hk).1.symm.trans hmv)
  exact hnot hp'

/-- A state in which a run stalls is one in which an exchange waits. -/
theorem waits_of_stalls {cfg : Cfg} {run : Nat → State} {moves : Nat → Option Move} {N : Nat} (h : IsRun cfg run moves)
    (hmv : moves N = some .stall) : (run N).fault = none ∧ (run N).phase ≠ .idle ∧ (run N).rxne = false := by
  have hN := h N
  rw [hmv] at hN
  exact (enabled_stall_iff cfg (run N)).mp hN.1

/-- Settles O51: a run that stalls for ever leaves ENV_TIMEOUT enabled for ever. -/
theorem hardenedRequestsEnd : Obligations.HardenedRequestsEnd := by
  intro cfg run moves hard hi h hfair n
  by_contra hnever
  have hbusy (k : Nat) (hk : n ≤ k) : (run k).phase ≠ .idle := fun hp => hnever ⟨k, hk, hp⟩
  obtain ⟨N, -, hstall⟩ := stalls_of_never_idle h hi hbusy
  have hwaits := waits_of_stalls h (hstall N le_rfl).1
  have he := (enabled_timeout_iff cfg (run N)).mpr ⟨hard, hwaits⟩
  simp [not_enabled_of_stalls hfair hstall rfl nofun] at he

/-- Settles O52: a run that stalls for ever leaves ENV_TX_DRAIN or ENV_RX_DONE enabled for ever. -/
theorem responsiveDeviceRequestsEnd : Obligations.ResponsiveDeviceRequestsEnd := by
  intro cfg run moves hi h hfair n
  obtain ⟨hdrain, hreply⟩ := hfair
  by_contra hnever
  have hbusy (k : Nat) (hk : n ≤ k) : (run k).phase ≠ .idle := fun hp => hnever ⟨k, hk, hp⟩
  obtain ⟨N, -, hstall⟩ := stalls_of_never_idle h hi hbusy
  obtain ⟨-, hp, hn⟩ := waits_of_stalls h (hstall N le_rfl).1
  have he := enabled_txDrain_eq_not_rxDone cfg 0 (isRun_stateInv h hi N) hp hn
  rw [not_enabled_of_stalls hdrain hstall rfl nofun, not_enabled_of_stalls hreply hstall ⟨0, rfl⟩ nofun] at he
  cases he

/-- Settles O53: the run that stays in `s` and takes ENV_STALL at each point. -/
theorem referenceModeCanHang : Obligations.ReferenceModeCanHang := by
  intro cfg s _ hf hp hn
  have he : enabled cfg s .stall = true := (enabled_stall_iff cfg s).mpr ⟨hf, hp, hn⟩
  exact ⟨fun _ => s, fun _ => some .stall, fun _ => ⟨he, rfl⟩, rfl, fun _ => ⟨hp, rfl⟩⟩

end Sys2Proof.Machine
end
